-- ==== Sys2Proof/Word.lean ====
section
/-!
DEFINITION. The words of the machine: bytes, 32-bit registers (R4), 64-bit entries, and the sparse arrays in which
the state holds everything that has an index.
-/
namespace Sys2Proof

/-- A byte of a frame, an image or a memory. -/
abbrev Byte := BitVec 8

/-- A register (R4). -/
abbrev Word := BitVec 32

/-- A page-table entry (R143) or a 64-bit quantity (R4). -/
abbrev DWord := BitVec 64

/-- A byte string, the byte at the lowest address first (R3). -/
abbrev Bytes := List Byte

/-- A sparse array: pairs of an index and a value, indices rising, no entry equal to the array's default. -/
abbrev Sparse (α : Type) := List (Nat × α)

end Sys2Proof
end

