-- ==== Sys2Proof/Syntax.lean ====
section
/-!
DEFINITION. The commands of the block: one constructor of `Instr` for each row of spec/opcode_table.json, with the
operands that name the part the event happens in and, where the event comes from outside the module, what it brings.
A command that executes a mailbox command names the function whose queue it takes it from (R311); a management
command is the oldest one the Watchtower holds (R417).
-/
namespace Sys2Proof

/-- Where a 32-bit register access goes: a Dome core's address (R453) or an offset of one function's BAR0 (R293). -/
inductive RegAddr where
  | dome (core addr : Nat)
  | bar0 (port func off : Nat)
  deriving DecidableEq, Repr

/-- What a read of one codeword finds (R135 to R137, R277). -/
inductive Ecc where
  | clean | corrected | uncorrectable
  deriving DecidableEq, Repr

/-- What a configuration request of a host reaches (R290, R291): the identity of a function, the registers that a host programs, or any other
register. -/
inductive CfgReg where
  | identity | maxPayload | msixControl | aerStatus | other
  deriving DecidableEq, Repr

/-- A configuration request of a host: the function, what it reaches, and the value that a write carries (R290, R395). -/
structure CfgRequest where
  f : Nat
  reg : CfgReg
  write : Option Nat := none
  deriving DecidableEq, Repr

/-- A resource under scrub (R435). -/
inductive Scrub where
  | ctx (part ctx : Nat) | part (part : Nat) | pair (k : Nat)
  deriving DecidableEq, Repr

/-- The deadline of a stream entry that passes (R328). -/
inductive DeadlineKind where
  | silence | latency | picture | reflex
  deriving DecidableEq, Repr

/-- What an LLDPDU of the partner carries (R335): the Trearis TLV, or its Chassis ID and Port ID alone, as one number. -/
inductive FarEnd where
  | tlv (serial slot port : Nat) | hash (ids : Nat)
  deriving DecidableEq, Repr

/-- The result the frequency-measuring counter sees (R385, R386). -/
inductive FmcResult where
  | count (edges : Nat) | noClock
  deriving DecidableEq, Repr

/-- The commands. -/
inductive Instr where
  -- registers
  | registerWrite (r : RegAddr) (width : Nat) (v : Word)
  | lowHalfRead (r : RegAddr)
  | rcRead (r : RegAddr)
  -- page table
  | ptRead (w : Nat) (gchk : Bool) (egen : Nat)
  | alloc (w : Nat) (gchk : Bool) (egen : Nat)
  | refInc (w : Nat) (gchk : Bool) (egen : Nat)
  | refDec (w : Nat) (gchk : Bool) (egen : Nat)
  | seal (w : Nat) (gchk : Bool) (egen : Nat)
  | retag (w : Nat) (gchk : Bool) (egen : Nat)
  | clean (w : Nat) (gchk : Bool) (egen : Nat)
  | free (w : Nat) (gchk : Bool) (egen : Nat)
  | restore (w : Nat) (gchk : Bool) (egen : Nat)
  | pageTableOpEnd (w : Nat)
  | fillComplete (page : Nat)
  -- sequencer control and bindings
  | release (p lcnt bset : Nat)
  | commit (p : Nat)
  | abort (p : Nat)
  | seqStepWrite (p : Nat) (hi : Bool) (v : Word)
  | bindWrite (p : Nat) (v : Word)
  | bindWriteEnd (p : Nat)
  | ptmDlWrite (p : Nat) (hi : Bool) (v : Word)
  -- issue
  | bundleIssue
  | plateFetch (p : Nat)
  | segmentAccept (n : Nat)
  | operationStart (n u : Nat)
  -- descriptors
  | matmul (n e : Nat)
  | drain (n e : Nat)
  | vecSimpleFp32 (n : Nat)
  | vecInteger (n : Nat)
  | vecConversion (n : Nat)
  | vecDivideRoot (n : Nat)
  | vecElementary (n : Nat)
  | vecReduction (n : Nat)
  | vecMovement (n : Nat)
  | vecMemory (n : Nat)
  | panrd (n pan : Nat)
  | panwr (n pan : Nat)
  | gather (n lane : Nat)
  | move (n : Nat)
  | cold (n : Nat)
  | barrier (p : Nat)
  | phase (p : Nat)
  | endPlate (p : Nat)
  | strin (n : Nat)
  | strout (n : Nat)
  -- completion, barriers, limiter, watchdog
  | operationComplete (n op : Nat)
  | moveAcknowledge (n op : Nat)
  | barrierComplete (p : Nat)
  | staggerRelease (p : Nat)
  | limiterGrant (b : Nat)
  | stepCompletion (p : Nat)
  | stall (p : Nat)
  | deadlineMiss (p : Nat)
  -- scrubbing, repair, oscillators, mesh
  | panPatrolRead (pan : Nat) (found : List Ecc)
  | rowCopyComplete (pan layer row : Nat)
  | cellRepair (n reason : Nat)
  | ageingCheck (n : Nat) (below : Bool)
  | oscillatorTrim (n : Nat) (beats : Nat)
  | meshFlitResend (n dir : Nat)
  -- Dome firmware procedures
  | boundaryProcedure (p : Nat)
  | commitRecordWrite (p : Nat)
  | standbyRelease (p : Nat)
  | replay (p : Nat)
  | rebuild (p : Nat)
  | scrubComplete (what : Scrub)
  -- host port
  | apertureWrite (port f off : Nat) (data : Bytes)
  | hpApReset (port f : Nat)
  | ringEnWrite (port f : Nat) (v : Word)
  | hpRingHeadWrite (port f : Nat) (v : Word)
  | inboundFrame (port f : Nat)
  | logEntryAck (f c : Nat)
  | egressWrite (port f : Nat)
  | irqDelayExpiry (port f : Nat)
  | flr (port f : Nat)
  | configRequest (port : Nat) (req : CfgRequest)
  -- mailbox commands
  | hello (f : Nat)
  | session (f : Nat)
  | chanQuery (f : Nat)
  | tenantCreate (f : Nat)
  | tenantDelete (f : Nat)
  | ddrAssign (f : Nat)
  | rangeSet (f : Nat)
  | partCreate (f : Nat)
  | partDelete (f : Nat)
  | vpairAlloc (f : Nat)
  | vpairRelease (f : Nat)
  | policySet (f : Nat)
  | inchConfig (f : Nat)
  | outchConfig (f : Nat)
  | toleranceSet (f : Nat)
  | ctxOpen (f : Nat)
  | ctxClose (f : Nat)
  | fork (f : Nat)
  | seqDrop (f : Nat)
  | imgBegin (f : Nat)
  | imgBlock (f : Nat)
  | imgEnd (f : Nat)
  | imgAbort (f : Nat)
  | plateUnload (f : Nat)
  | tableUnload (f : Nat)
  | weightsUnload (f : Nat)
  | modelRegister (f : Nat)
  | modelRemove (f : Nat)
  | profileSet (f : Nat)
  | profileRemove (f : Nat)
  | treeSet (f : Nat)
  | vctxOpen (f : Nat)
  | vctxClose (f : Nat)
  | keyRequest (f : Nat)
  | attest (f : Nat)
  -- firmware update
  | fwBegin (f : Nat)
  | fwBlock (f : Nat)
  | fwEnd (f : Nat)
  | fwAbort (f : Nat)
  | fwActivate (f : Nat)
  | fwStatus (f : Nat)
  | firmwareConfirm
  | confirmationWindowExpiry
  -- pair
  | pairConfig (f : Nat)
  | pairStatus (f : Nat)
  | pairUnpair (f : Nat)
  | pairSuspect (f : Nat)
  | pairResync (f : Nat)
  | pairSnapshot (f : Nat)
  | snapshotTransmit (p : Nat)
  | mirrorDecision (port f : Nat)
  | snapBegin (f : Nat)
  | snapDome (f : Nat)
  | snapPage (f : Nat)
  | snapEnd (f : Nat)
  | roleActive (frame : Bytes)
  | roleStandby (frame : Bytes)
  | roleIsolate (frame : Bytes)
  | heartbeat
  | leaseExpiry
  | arbiterLink
  -- stream ports and links
  | sensorDatagram (port : Nat) (frame : Bytes)
  | rtpDatagram (port : Nat) (frame : Bytes)
  | reflexDatagram (port : Nat) (frame : Bytes)
  | addressResolution (port dst : Nat) (rest : Bytes)
  | streamFrameDiscard (port : Nat) (frame : Bytes)
  | streamDeadlineExpiry (entry : Nat) (k : DeadlineKind)
  | lldpTransmit (port : Nat)
  | lldpReceive (port ttl : Nat) (far : FarEnd)
  | lldpExpiry (port : Nat)
  | remapWord (port : Nat) (partner : Option (Nat × Nat × Nat × Nat))
  | laneLockLoss (port lane : Nat)
  | linkDown (port : Nat)
  -- video
  | pictureDecode (k : Nat)
  | shapePicture (k j : Nat)
  | pictureReady (k j : Nat)
  | encodePicture (k j : Nat)
  | sliceCoded (k j : Nat)
  -- DDR4
  | ddrWriteAck (c : Nat)
  | deviceFailed (c dev : Nat)
  | spareCopyComplete (c : Nat)
  | ddrPatrolRead (c page cw : Nat) (devs : List Nat)
  | zqCalibration (c : Nat)
  | selfRefreshChange (c : Nat)
  -- Dome apertures, cores and DIC
  | panApertureAccess (core addr : Nat) (store : Option DWord)
  | coldApertureAccess (core addr : Nat) (store : Option DWord)
  | domeStart (v : Word)
  | domeFail (v : Word)
  | domeKick (core : Nat)
  | domeWatchdogExpiry (core : Nat)
  | domeCacheUe (core : Nat)
  | domeMemoryUe
  | dicClaim (core : Nat)
  | dicComplete (core : Nat) (v : Word)
  | dicSoftWrite (core : Nat) (v : Word)
  | dicTimerExpiry (core : Nat)
  -- power
  | pwrCapSetWrite (v : Word)
  | clampHoldEnd
  | clampClimb
  | pwrPolWrite (p : Nat) (v : Word)
  | idleWrite (p : Nat) (v : Word)
  | offWrite (p : Nat) (v : Word)
  | idleHoldExpiry (p : Nat)
  | p3ExitDone (p : Nat)
  | powerInterval (est queues : List Nat)
  | gainUpdate (measured estimated : Nat)
  | powerSample (volts amps : Nat)
  | policyConflict (p : Nat)
  | droopDetect (b : Nat)
  | stretchEnd (b : Nat)
  | droopLong (b : Nat) (still : Bool)
  | thermalLimitStep (b temp : Nat)
  | thermal (b temp : Nat)
  | thermalTrip (b temp : Nat)
  | coolant (inlet outlet : Nat)
  -- clocks
  | oscWaitEnd (refOk : Bool)
  | refclkLost
  | refclkReturn
  | trimLost
  | trimLock (correction : Nat)
  | clkCtlWrite (v : Word)
  | start (v : Word)
  | measurementDone (r : FmcResult)
  -- resets
  | coldReset (source : Nat) (full : Bool)
  | warmReset (source : Nat)
  | computeReset (source : Nat)
  | partitionReset (p : Nat)
  -- bring-up
  | romPhase
  | ddrTraining (failed : List Nat)
  | firmwareSelection
  | domeSelfTest (failed : List Nat)
  | microcodeBroadcast (failed : List Nat)
  | cellCheck (failed : List Nat) (rows : List (Nat × Nat × Nat))
  | ddrTest (failed : List (Nat × Nat))
  | ready
  -- management
  | mgmtHello (frame : Bytes) (replyTo : Nat)
  | mgmtCmdCheck (frame : Bytes) (replyTo : Nat)
  | status
  | attestMod
  | faultRead
  | keyEnroll
  | keyRevoke
  | keyList
  | platekeySet
  | hostkeyPin
  | licenceInstall
  | capSet
  | trimSet
  | portAddr
  | macsecSak
  | macsecCtl
  | streamAdd
  | streamRemove
  | streamList
  | reset
  | powerOff
  | eventDest
  -- faults and board
  | faultWindowEnd (key : Nat)
  | presenceOpen
  | lossLineRepeat
  | powerGood
  | modResetN (released : Bool) (lowNs : Nat)
  | wakeN (lowNs : Nat)
  | inputFault (mv us : Nat)
  | linkTrained (port width : Nat)
  | bufferSetRelease (k j set : Nat)
  | pwrTolWrite (p : Nat) (v : Word)
  | ddrOwnWrite (c : Nat) (v : Word)
  deriving DecidableEq, Repr

end Sys2Proof
end

