-- ==== Sys2Proof/Config.lean ====
section
/-!
DEFINITION. What the spec leaves open and the model leaves free: constants with no body, so that no proof can see a
value of them. Each names the log entry that says where the spec is silent.
-/
namespace Sys2Proof

/-- The samples of a 4:2:0 picture in raster order (R250). -/
structure Planes where
  luma : List Nat := []
  cb : List Nat := []
  cr : List Nat := []
  deriving DecidableEq, Repr, Inhabited

/-- Profiles of R250; `other` stands for every profile that R250 does not name. -/
inductive Profile where
  | main | high | main10 | other
  deriving DecidableEq, Repr, Inhabited

/-- A conformance window: place and size in luma samples. -/
structure Window where
  x : Nat := 0
  y : Nat := 0
  w : Nat := 0
  h : Nat := 0
  deriving DecidableEq, Repr, Inhabited

/-- What the active parameter set of a sequence says about the items of R250: profile, chroma format 4:2:0, bit depths, frames that are
progressive, coded picture size, conformance window and reference pictures. -/
structure SeqParams where
  profile : Profile
  yuv420 : Bool
  depthY : Nat
  depthC : Nat
  progressive : Bool
  width : Nat
  height : Nat
  window : Window
  dpb : Nat
  deriving DecidableEq, Repr, Inhabited

/-- One coding unit that the entropy engine meets in a slice: its place in the picture, the bins it takes, and whether it is free of the
damage of R256. -/
structure SliceUnit where
  place : Nat
  bins : Nat
  good : Bool
  deriving DecidableEq, Repr, Inhabited

/-- The syntax of the next access unit of a context, as ITU-T H.264 or H.265 reads it from the NAL units (R250, R254, R256, R258,
R259). Access units of a context are counted from 0. -/
structure AccessUnit where
  /-- The last NAL unit or marker completes an access unit. -/
  present : Bool
  seq : SeqParams
  /-- An IDR or IRAP picture. -/
  irap : Bool
  /-- A LOSS marker before it removed whole pictures (R259). -/
  lost : Bool
  /-- Side of a coding unit in luma samples, and bytes of the VCL NAL units. -/
  side : Nat
  bytes : Nat
  /-- The slices that are there, each with the coding units met in it. -/
  slices : List (List SliceUnit)
  /-- Entries of its reference picture lists: the access unit named, and whether the picture predicts from it. -/
  refs : List (Nat × Bool)
  /-- Access units that stay in the decoded picture buffer, and those output with this one, in output order. -/
  keep : List Nat
  outputs : List Nat
  deriving DecidableEq, Repr, Inhabited

namespace Config

/-- A soft error: a wrong bit in a codeword of the Pan array or of a staging store, or a wrong device in a codeword of the
cold tier; codewords are numbered through the array (R57, R135, R277). -/
inductive Upset where
  | pan (cw : Nat)
  | staging (cw : Nat)
  | cold (cw dev : Nat)
  deriving DecidableEq, Repr

/-- The soft errors that come in a tick: no rule says when one comes, log 13. -/
opaque upsets (tick : Nat) : List Upset

/-- A flit on a channel that carries a partition's traffic is acknowledged in a tick (R123): the model has no flits, log 151. -/
opaque flitAcked (tick part : Nat) : Bool

/-- The n-th free value drawn: numbers from the TRNG (R194, R274, R280, R402, R415, R426) and every value the spec
calls unpredictable or leaves to the firmware; UNSTATED by the spec, log 3. -/
opaque free : Nat → Nat

/-- Beats that a cell runs in one tick at a target rate: the spec bounds their mean only (R384), log 16. -/
opaque beats (tick cell target : Nat) : Nat

/-- Whether an inexact quotient is rounded up where the spec states no rounding, by numerator and denominator; the spec
bounds nothing else (R360, R375), log 3. -/
opaque roundUp (num den : Nat) : Bool

/-- Bytes of a cold page that has not been written under the key it is read with (R275), by byte address and key,
log 8. -/
opaque coldByte (addr key : Nat) : Byte

/-- The parse of ITU-T H.264 and H.265: a function of the context's parameter block and of the NAL units and LOSS markers taken so far
(R253), log 14. -/
opaque parse (params : Bytes) (seen : List (Nat × Bytes)) : AccessUnit

/-- A sample that ITU-T H.264 or H.265 reconstructs for the newest access unit from its reference pictures (R253): plane 0 luma, 1 Cb,
2 Cr, log 14. -/
opaque decoded (params : Bytes) (seen : List (Nat × Bytes)) (refs : List Planes) (plane x y : Nat) : Nat

/-- The bytes in which a picture stands in its picture storage, whose layout no rule gives, log 14. -/
opaque stored (params : Bytes) (q : Planes) : Bytes

/-- How far an entropy engine runs ahead of its pixel engine in a tick: pictures and bytes (R247, R269), log 86. -/
opaque runAhead (tick pair : Nat) : Nat × Nat

/-- A sample that has no source in the spec: outside a smaller decoded picture, of another depth, or of a raw picture that DDR4 did not
deliver, log 14. -/
opaque outsideSample (x y plane : Nat) : Nat

/-- Bits of a slice header, with the parameter sets before the first slice of an IDR picture (R268), log 15. -/
opaque headerBits (params : Bytes) (idr : Bool) (slice : Nat) : Nat

/-- Bits to which one coding unit codes at a QP (R268): a function of the context's parameters, the reference, the
picture, its type, the choices made so far in it, and the QP; no QP is the skip mode. Log 15. -/
opaque unitBits (params : Bytes) (ref picture : Planes) (idr : Bool) (choices : List (Option Nat)) (qp : Option Nat) : Nat

/-- The bytes of one coded slice, as the choices of R268 fix them, with a filler NAL unit of the given size, log 15. -/
opaque sliceBytes (params : Bytes) (ref picture : Planes) (idr : Bool) (choices : List (Option Nat)) (slice filler : Nat) : Bytes

/-- The reconstruction of a coded picture, which the next P picture references (R266), log 15. -/
opaque recon (params : Bytes) (ref picture : Planes) (idr : Bool) (choices : List (Option Nat)) : Planes

/-- Place of the next ready record in Dome memory (R263): the firmware's choice, log 17. -/
opaque readyRing (pair ctx record : Nat) : Nat

/-- The Pan in which Dome firmware keeps the pages of one (sequence, layer, KV head) triple (R165): the firmware's
choice, log 17. -/
opaque servingPan (part model ctx seqh layer head : Nat) : Nat

/-- Which object of a step a binding slot of a cell serves, by step, cell, slot and the part of the choice: the convention of
the family's plates with Dome firmware, not stated by the spec (R193, R196), log 43. -/
opaque bindTarget (step cell slot part : Nat) : Nat

/-- The place that the family designates for a request's accept record or commit map (R221, R222), log 149. -/
opaque familyPlace (step chan reqSeq what : Nat) : Nat

/-- The Pans in which Dome firmware keeps the scanned states of a sequence, one for each state (R162, R242): the family's number and
places, log 148. -/
opaque statePans (part model ctx seqh : Nat) : List Nat

/-- A hash of the partner's Chassis ID and Port ID (R335): the spec does not name the hash. -/
opaque identityHash : Nat → Nat

/-- Settings that an image migrates or starts with (R448): the content is the firmware's own, log 17. -/
opaque settings (setVer : Nat) (old : Bytes) : Bytes

end Config
end Sys2Proof
end

