-- ==== Sys2Proof/Machine/State.lean ====
section
/-!
DEFINITION. The state of the module, as plain data: every register, memory, queue, table and pin that the spec names,
grouped by the unit that holds it, the queue of waiting commands, and the state right after a cold reset.
Arrays with an index are sparse: an index that is not listed holds the default of its type.
-/
namespace Sys2Proof.Machine

/-- The six sticky arithmetic flags of a partition (R46). -/
structure Flags where
  nv : Bool := false
  of : Bool := false
  uf : Bool := false
  sat : Bool := false
  scl : Bool := false
  iov : Bool := false
  deriving DecidableEq, Repr

/-- One descriptor at work in a cell, from its entry into a queue to its completion (R90, R112, R113). -/
structure CellOp where
  /-- Number that names the operation in its cell (the model's own). -/
  id : Nat := 0
  /-- Issue number of the segment that held the descriptor; it orders the operation against barriers (R117). -/
  seg : Nat := 0
  /-- The descriptor (R86): 16 or 32 bytes, bit 0 first. -/
  desc : BitVec 256 := 0
  /-- The wait token has been taken (R113). -/
  tok : Bool := false
  /-- Units that have started. -/
  started : List Nat := []
  /-- Units whose work is done. -/
  worked : List Nat := []
  /-- A transfer-tracker entry is held (R116). -/
  trk : Bool := false
  /-- The far end has acknowledged (R113). -/
  acked : Bool := false
  /-- The operation faulted and makes no further progress (R148, R492). -/
  dead : Bool := false
  deriving DecidableEq, Repr

/-- A cell (R49 to R61, R111 to R114). -/
structure CellState where
  /-- Segment buffer, at most 4 segments: issue number and the descriptors not yet queued (R111, R112). Empty. -/
  segBuf : List (Nat × List (BitVec 256)) := []
  /-- Descriptor queue of each issuing unit, at most 32: operation numbers, oldest first (R111). Units: 0-3 engines,
  4 vector unit, 5-8 Pan ports, 9-12 decode lanes, 13 router local port. Empty. -/
  queues : Sparse (List Nat) := []
  /-- Operations queued or running (R113). Empty. -/
  ops : List CellOp := []
  /-- Number of the next operation (the model's own). -/
  nextOp : Nat := 0
  /-- Event channels 0-15, 0 to 63 tokens each (R114). 0. -/
  tokens : Sparse Nat := []
  /-- FUSED ceiling, 7 bits (R59, R61). From fuses: 64 (log 6). -/
  fused : Nat := 64
  /-- AGED ceiling, 7 bits, kept by the Watchtower (R59). Starts equal to FUSED. -/
  aged : Nat := 64
  /-- CELL_STAT, bits 3-0 (R61). 0. -/
  stat : Word := 0
  /-- CELL_BEATS, 64 bits (R61). 0. -/
  beats : Nat := 0
  /-- CELL_SS_WAIT, 32 bits (R61). 0. -/
  ssWait : Nat := 0
  /-- CELL_SS_CE, 32 bits (R61). 0. -/
  ssCe : Nat := 0
  /-- Ticks of the corrected staging-store errors of the last second (R476). Empty. -/
  ssCeTicks : List Nat := []
  /-- Tick of the last uncorrectable staging-store error, for the 1 hour threshold (R476). None. -/
  ssUeTick : Option Nat := none
  /-- Engines holding a limiter grant (R111, R121). Empty. -/
  grants : List Nat := []
  /-- Beat count at the end of each engine's last tile operation, for idleness (R120); unlisted: idle. -/
  lastTile : Sparse (Option Nat) := []
  /-- Accumulator tiles, as 2 e + tile, whose last tile operation was of the integer family (R39, R41, R94); the model's
  own record of what the 32-bit words of a tile hold. None. -/
  intTiles : List Nat := []
  /-- Trim codes per V/F point (R384). 0. -/
  trim : Sparse Nat := []
  /-- Consecutive failing ageing checks (R371). 0. -/
  ageFails : Nat := 0
  /-- Tick of the last lowering of AGED (R371). None. -/
  ageTick : Option Nat := none
  /-- Tick of the last ageing check (R371). None. -/
  ageCheck : Option Nat := none
  /-- Ticks of flit resends of each link 0-7 within the last 1 ms (R476). Empty. -/
  resends : Sparse (List Nat) := []
  /-- The microcode is loaded (R400). 0. -/
  ucode : Bool := false
  deriving DecidableEq, Repr

/-- A Pan (R132 to R141). -/
structure PanState where
  /-- PAN_STAT, bits 3-0 (R141). 0. -/
  stat : Word := 0
  /-- PAN_CE, 32 bits (R141). 0. -/
  ce : Nat := 0
  /-- PAN_UE, 32 bits (R141). 0. -/
  ue : Nat := 0
  /-- PAN_WAIT, 32 bits (R141). 0. -/
  wait : Nat := 0
  /-- PAN_LAST_ERR, 20 bits (R141). 0. -/
  lastErr : Word := 0
  /-- Spare rows used per layer, PAN_SPARE (R139, R141). From fuses: 0 (log 6). -/
  spare : Sparse Nat := []
  /-- Runtime row replacements, as layer × 512 + row, kept by the Watchtower (R139). None. -/
  replaced : List Nat := []
  /-- Row copies in progress, as layer × 512 + row (R139). None. -/
  copying : List Nat := []
  /-- Next unit of the patrol scrubber, 0 to 131,071 (R138). 0. -/
  patrol : Nat := 0
  /-- Beat count of the cell at the last patrol read (R138). None. -/
  patrolBeat : Option Nat := none
  deriving DecidableEq, Repr

/-- A page-table window (R156, R159). -/
structure PtWindow where
  /-- PAN_PT_ROW, 17 bits. 0. -/
  row : Nat := 0
  /-- PAN_PTE, 64 bits. 0. -/
  pte : DWord := 0
  /-- BUSY. 0. -/
  busy : Bool := false
  /-- CMD_IGN. 0. -/
  cmdIgn : Bool := false
  /-- RESULT, 4 bits. 0. -/
  result : Nat := 0
  /-- Outcome and row of the operation in progress, not yet shown (R156). None. -/
  running : Option (Nat × Nat) := none
  deriving DecidableEq, Repr

/-- A plate of the plate directory (R78). -/
structure Plate where
  shapeH : Nat := 0
  shapeW : Nat := 0
  family : Nat := 0
  pinned : Bool := false
  beats : Nat := 0
  /-- SHA-512 measurement (R77). -/
  meas : Bytes := []
  /-- Page-table rows of the image, in order. -/
  pages : List Nat := []
  plateId : Nat := 0
  segOff : Nat := 0
  segBytes : Nat := 0
  rampOff : Nat := 0
  rampCount : Nat := 0
  preslots : Nat := 0
  nbind : Nat := 0
  /-- For each slot, the mask of TYPE values its uses accept (R198). -/
  uses : List (Nat × Nat) := []
  /-- Pages that it names by a direct address: relative row and column of the cell, and 32 × Pan + slot (R162). -/
  directs : List (Nat × Nat × Nat) := []
  deriving DecidableEq, Repr

/-- A loaded weights image (R315). -/
structure WeightsImg where
  meas : Bytes := []
  rows : List Nat := []
  deriving DecidableEq, Repr

/-- A loaded grammar table or allow-list (R215). -/
structure TableImg where
  tkind : Nat := 0
  vocab : Nat := 0
  nent : Nat := 0
  meas : Bytes := []
  rows : List Nat := []
  body : Bytes := []
  deriving DecidableEq, Repr

/-- An open image transfer (R314). -/
structure OpenImg where
  kind : Nat := 0
  length : Nat := 0
  /-- Written bytes, by offset. -/
  data : Sparse (Option Byte) := []
  deriving DecidableEq, Repr

/-- A model slot (R190, R191, R208, R217). -/
structure Model where
  weights : List Nat := []
  kvfmt : Nat := 0
  dcode : Nat := 0
  family : Nat := 0
  layers : Nat := 0
  kvheads : Nat := 0
  vocab : Nat := 0
  maxctx : Nat := 0
  kvbud : Nat := 0
  pbud : Nat := 0
  decB : List Nat := []
  preB : List Nat := []
  /-- Step lists by entry i × (NPB + 1) + j (R314). -/
  lists : List (List Nat) := []
  /-- Sampling profiles 0-255, 64 bytes each (R208). -/
  profiles : Sparse (Option Bytes) := []
  /-- Tree shapes 0-15: the parents of the nodes (R217). -/
  trees : Sparse (Option (List Nat)) := []
  deriving DecidableEq, Repr

/-- States of a request (R186). -/
inductive ReqState where
  | queued | prefill | decode | ended
  deriving DecidableEq, Repr

/-- A request (R184 to R186, R194, R206, R225, R226). -/
structure Request where
  chan : Nat := 0
  reqSeq : Nat := 0
  ctx : Nat := 0
  st : ReqState := .queued
  /-- The OPEN frame's payload, from which its parameters are read (R184). -/
  params : Bytes := []
  accTick : Nat := 0
  seed : Nat := 0
  /-- Prompt tokens prefilled. -/
  filled : Nat := 0
  /-- Output tokens produced. -/
  produced : Nat := 0
  /-- The frame with END has been handed to egress in the step (R206). -/
  endSent : Bool := false
  /-- Pages reserved in each serving Pan (R194, R223). -/
  reserved : Nat := 0
  /-- Consecutive all-reject steps (R226). -/
  rejects : Nat := 0
  suspended : Bool := false
  /-- The acceptance of the last verify step, until the next step's decision record has held it: N and the path (R221, R222, R224).
  None. -/
  commitPend : Option (Nat × List Nat) := none
  /-- SCRATCH page of each (layer, KV head) of the verify step at hand, or of the one whose commit is pending (R219, R223).
  Empty. -/
  scratch : List Nat := []
  /-- OUTPUT frames sent for the request in the step at hand (R186, R206). 0. -/
  sent : Nat := 0
  /-- The request's DEADLINE_MISS has been raised in this step (R206). -/
  missed : Bool := false
  deriving DecidableEq, Repr

/-- States of a sequence (R187). A sequence that is not listed is FREE. -/
inductive SeqState where
  | active | pausing | paused
  deriving DecidableEq, Repr

/-- A sequence (R187). -/
structure Sequence where
  ctx : Nat := 0
  seqh : Nat := 0
  /-- Channel of the request that last continued it; EVENT items name it (R285). -/
  chan : Nat := 0
  /-- REQ_SEQ, N and path of a verify step whose commit its harvests wait for (R224). None. -/
  pend : Option (Nat × Nat × List Nat) := none
  model : Nat := 0
  st : SeqState := .active
  /-- Entries held. -/
  len : Nat := 0
  ttl : Nat := 0
  expiry : Nat := 0
  /-- The page list of each (layer, KV head), in the order of the positions: rows of the Pan pages, none for a page that the
  cold tier alone holds (R151, R165, R187). Empty. -/
  pages : List (List (Option Nat)) := []
  /-- Entries that each page of a list holds, page by page; pages beyond are allocated and hold none yet (R172, R222). Empty. -/
  counts : List Nat := []
  /-- Cold pages held, each with the triple and the place in its list of the page whose contents it takes (R187). Empty. -/
  cold : List (Nat × Nat × Nat) := []
  /-- SCRATCH pages of a verify step whose commit the sequence awaits after its request has ended (R224). Empty. -/
  scratch : List Nat := []
  /-- Work page of each scanned state, whose committed page is the one page of a list behind those of the (layer, KV head)
  triples; none while it has none (R242). Empty. -/
  work : List (Option Nat) := []
  /-- Its harvests are planned in the prelude of the step at hand (R187). No. -/
  planned : Bool := false
  deriving DecidableEq, Repr

/-- States of a context (R190). -/
inductive CtxState where
  | free | opened | closing | scrubbing
  deriving DecidableEq, Repr

/-- A context (R190). -/
structure Context where
  st : CtxState := .free
  job : Nat := 0
  member : Nat := 0
  members : Nat := 0
  /-- Number of the context key, or none (R274). -/
  key : Option Nat := none
  /-- Sequence number of the CTX_CLOSE to be answered (R190). -/
  closeCmd : Option Nat := none
  deriving DecidableEq, Repr

/-- Sequencer states of a partition (R202). -/
inductive SeqCtlState where
  | boundary | released | complete | stopped
  deriving DecidableEq, Repr

/-- A pending barrier (R117 to R119). -/
structure Barrier where
  seg : Nat := 0
  bid : Nat := 0
  stagger : Bool := false
  /-- The barrier has completed and is being released. -/
  done : Bool := false
  /-- Sequencer cycle of completion. -/
  at_ : Nat := 0
  /-- Blocks released so far. -/
  released : Nat := 0
  deriving DecidableEq, Repr

/-- Power states of a partition (R357). -/
inductive PState where
  | p0 | p1 | p2 | p3
  deriving DecidableEq, Repr

/-- An item of a partition-log record: 16 bytes (R285). -/
abbrev LogItem := Bytes

/-- A record of a partition log (R285). -/
structure PlogRec where
  commit : Bool := false
  step : Nat := 0
  tick : Nat := 0
  /-- Byte position in the log ring. -/
  pos : Nat := 0
  items : List LogItem := []
  deriving DecidableEq, Repr

/-- The record of a decision: what R196 lists. -/
structure Decision where
  step : Nat := 0
  model : Nat := 0
  list : List Nat := []
  bset : Nat := 0
  /-- Channel, context, REQ_SEQ and seed of each admission. -/
  admits : List (Nat × Nat × Nat × Nat) := []
  /-- Channel, slot, REQ_SEQ and whether it speculates, of each decode slot. -/
  decodes : List (Nat × Nat × Nat × Bool) := []
  /-- Channel, REQ_SEQ, first token and length of each chunk. -/
  chunks : List (Nat × Nat × Nat × Nat) := []
  /-- Kind, channel or context, number and argument of each event. -/
  events : List (Nat × Nat × Nat × Nat) := []
  /-- N, channel, REQ_SEQ and path of each speculative acceptance. -/
  specs : List (Nat × Nat × Nat × List Nat) := []
  /-- Video context, buffer set and PICNUM of each picture flooded (R263). -/
  pics : List (Nat × Nat × Nat) := []
  deriving DecidableEq, Repr

/-- The work that a step's prelude does for the page lists, which its bind set names (R150, R153, R187, R189, R222, R263,
R265). -/
structure StepPlan where
  /-- Page copies: the shared page and the new one. -/
  copies : List (Nat × Nat) := []
  /-- Floods: page, cold page and context. -/
  floods : List (Nat × Nat × Nat) := []
  /-- Harvests: page, cold page and context. -/
  harvests : List (Nat × Nat × Nat) := []
  /-- Pages of accepted paths: the SCRATCH page, and the page that takes its entries by COPY, none for a REMAP. -/
  commits : List (Nat × Option Nat) := []
  /-- Cold pages of the picture sets that are flooded and of the input buffers that are harvested, with their context. -/
  buffers : List (Nat × Nat) := []
  /-- Work pages of the scanned states that the bind set names through WRITE slots (R242). -/
  states : List Nat := []
  deriving DecidableEq, Repr

/-- A checkpoint set (R474). -/
structure Checkpoint where
  step : Nat := 0
  ptes : List (Nat × BitVec 64) := []
  /-- Page contents by page row, and the cold pages holding them. -/
  pages : List (Nat × Nat) := []
  /-- The page bytes, at Pan byte addresses. -/
  bytes : List Host.Cell := []
  reqs : List Request := []
  seqs : List Sequence := []
  /-- Requests that had ended by then: channel and REQ_SEQ. -/
  ended : List (Nat × Nat) := []
  /-- Next numbers of the partition's output channels 1-255. -/
  outs : List (Nat × Nat) := []
  deriving DecidableEq, Repr

/-- What the step report of the running step counts (R207). -/
structure Report where
  tRel : Nat := 0
  /-- Cell beat counts at the release. -/
  beats : Sparse Nat := []
  deadline : Nat := 0
  missed : Bool := false
  replay : Bool := false
  repair : Bool := false
  trunc : Bool := false
  clamp : Bool := false
  nDec : Nat := 0
  nPre : Nat := 0
  nOut : Nat := 0
  nLate : Nat := 0
  model : Nat := 0
  deriving DecidableEq, Repr

/-- A log ring's place in the cold tier (R282, R285). -/
structure Ring where
  first : Nat := 0
  pages : Nat := 0
  /-- Units (input ring) or bytes (partition log) written since the ring was set up. -/
  head : Nat := 0
  /-- Release position, counted like the head. -/
  rel : Nat := 0
  deriving DecidableEq, Repr

/-- Phase values the power controller uses for a partition (R364). -/
structure PhaseCtl where
  pcode : Nat := 0
  handle : Nat := 0
  vfMin : Nat := 0
  vfMax : Nat := 15
  act : Nat := 128
  steps : Nat := 1
  deriving DecidableEq, Repr

/-- A partition's power window and controller state (R365 to R367, R375). -/
structure PartPower where
  /-- FFLOOR, FCEIL, PFLOOR, PCEIL (R363, R375). Set by PART_CREATE; before: 0, 0, 0, 0 (log 5). -/
  ffloor : Nat := 0
  fceil : Nat := 0
  pfloor : Nat := 0
  pceil : Nat := 0
  /-- PWR_TOL, 32 bits. 0. -/
  tol : Nat := 0
  /-- IDLE of PWR_PCTL. 0. -/
  idle : Bool := false
  /-- Tick at which IDLE was set (R358). None. -/
  idleAt : Option Nat := none
  /-- A P3 partition whose blocks are being powered on (R358). No. -/
  waking : Bool := false
  /-- DONE_P3 not yet taken (R358, R457). No. -/
  doneP3 : Bool := false
  /-- PSTATE (R358). P0. -/
  st : PState := .p0
  /-- W1C bits of PWR_PSTAT: POL_IGN, PCTL_IGN, CLAMPED, DROOP, THROTTLE, CONFLICT at bits 22-17. 0. -/
  ev : Word := 0
  duty : Nat := 0
  limit : Nat := 0
  point : Nat := 0
  /-- PWR_EST, 0.1 W. 0. -/
  est : Nat := 0
  /-- PWR_E, 64 bits: its µJ, counted in 1/163,840 µJ. 0. -/
  energy : Nat := 0
  /-- PWR_DROOPS, 32 bits. 0. -/
  droops : Nat := 0
  /-- PWR_EXIT3, 32 bits. 0x0001_5F90. -/
  exit3 : Nat := 90000
  phase : PhaseCtl := {}
  /-- Learned table, at most 64 entries, most recent first: plate handle, PCODE, and the predicted power divided by
  V² × f of its point, as numerator and denominator (R365). Empty. -/
  learned : List (Nat × Nat × Nat × Nat) := []
  /-- Tick since which limit 3 has held the partition below FFLOOR (R367). None. -/
  conflictAt : Option Nat := none
  /-- POLICY_CONFLICT has been raised in the present episode (R367). No. -/
  conflictRaised : Bool := false
  deriving DecidableEq, Repr

/-- A partition (R74, R78, R84, R126 to R130, R142, R190, R201, R202, R285). -/
structure Part where
  /-- The partition exists. No. -/
  present : Bool := false
  tenant : Nat := 0
  br0 : Nat := 0
  br1 : Nat := 0
  bc0 : Nat := 0
  bc1 : Nat := 0
  /-- The reflex attribute (R329). No. -/
  reflex : Bool := false
  /-- Under scrub (R435). No. -/
  scrub : Bool := false
  /-- Sequence number of the PART_DELETE to be answered when the scrub ends (R314). None. -/
  deleteCmd : Option Nat := none
  /-- Failed (R473). No. -/
  failed : Bool := false
  -- SEQ window (R201)
  st : SeqCtlState := .boundary
  err : Nat := 0
  ctlIgn : Bool := false
  bwIgn : Bool := false
  bwBusy : Bool := false
  list : DWord := 0
  /-- SEQ_STEP, 64 bits. 0. -/
  step : Nat := 0
  bwSlot : Word := 0
  bwCells : Word := 0
  /-- SEQ_BW_E0 to E7. 0. -/
  bwE : Sparse Word := []
  -- PTM window (R130)
  dl : Nat := 0
  armed : Bool := false
  doneTick : Nat := 0
  /-- W1C bits of PTM_STAT: DL_WR_IGN, STALL, MISS, DONE at bits 4, 3, 2, 0. 0. -/
  ptmStat : Word := 0
  miss : Nat := 0
  limWait : Nat := 0
  trk : Nat := 0
  trkDdr : Nat := 0
  lastBid : Nat := 0
  quiet : Nat := 0
  -- the released step
  bset : Nat := 0
  handles : List Nat := []
  /-- The deadline of this step has been missed and reported (R128). No. -/
  dlMissed : Bool := false
  /-- Position in the step list. -/
  listPos : Nat := 0
  /-- Byte offset of the next segment in the segment stream. -/
  segPos : Nat := 0
  /-- Idle beats still to elapse (R82). -/
  idleLeft : Nat := 0
  /-- Bytes of the step list's streams fetched and not yet issued, at most 4 KiB (R85). -/
  prefetch : Bytes := []
  /-- Step-list position and byte offset of the next fetch. -/
  fetchList : Nat := 0
  fetchPos : Nat := 0
  /-- The stream of a pinned plate (R80). Empty. -/
  pinBuf : Bytes := []
  /-- The last segment of the step list has been issued. No. -/
  issued : Bool := false
  /-- Issue number of the next segment. -/
  segNo : Nat := 0
  /-- BARRIER, PHASE and END descriptors issued and not yet taken up, with issue numbers (R88). Empty. -/
  seqq : List (Nat × BitVec 256) := []
  /-- Pending barriers, oldest first (R117). Empty. -/
  barriers : List Barrier := []
  /-- The END of the last plate has been taken up (R122). No. -/
  endWait : Bool := false
  flags : Flags := {}
  rep : Report := {}
  /-- Sequence number offsets of STROUTs already taken from each OUT slot, by cell × 65,536 + slot (R199). -/
  outTaken : Sparse Nat := []
  -- plates, tables, weights, models (R78, R190, R215, R315)
  plates : Sparse (Option Plate) := []
  tables : Sparse (Option TableImg) := []
  wimgs : Sparse (Option WeightsImg) := []
  models : Sparse (Option Model) := []
  /-- Model slot last served (R192). None. -/
  lastModel : Option Nat := none
  /-- The step last released from a decision, with the next output number of each of its channels at that release: a replay
  hands the same numbers to egress (R288). None. -/
  relNext : Option (Nat × List (Nat × Nat)) := none
  /-- Highest NBIND of the loaded plates and the rows that hold the bind sets (R197). -/
  nbind : Nat := 0
  bindRows : List Nat := []
  /-- Pages of the loaded plates, tables and weights as their images in the SHARED ranges hold them (R274, R475): entry and
  bytes by row. Empty. -/
  imgPages : Sparse (Option (DWord × Bytes)) := []
  /-- Cold pages of the SHARED ranges in which those images lie, with the row that each is the image of (R274). Empty. -/
  imgCold : List (Nat × Nat) := []
  /-- PLATE_UNLOAD commands waiting for a commit: handle and command number (R108). -/
  unloads : List (Nat × Nat) := []
  -- contexts, requests, sequences (R184 to R190)
  ctxs : Sparse Context := []
  reqs : List Request := []
  seqs : List Sequence := []
  /-- Last 4,096 ended requests: channel and REQ_SEQ (R204). -/
  endedReqs : List (Nat × Nat) := []
  /-- CANCEL frames accepted and not applied: channel, REQ_SEQ, tick (R204). -/
  cancels : List (Nat × Nat × Nat) := []
  /-- Commit tick of the last committed step (R193). 0. -/
  tb : Nat := 0
  -- partition log (R285, R286)
  plog : Ring := {}
  recs : List PlogRec := []
  /-- Decision of the step at hand, and decisions held by a standby (R196, R345). -/
  decision : Option Decision := none
  held : List Decision := []
  /-- The commit record of the completed step has been acknowledged (R203). No. -/
  commitRec : Bool := false
  /-- Restore step of the last commit record (R286). 0. -/
  restoreStep : Nat := 0
  ckpts : List Checkpoint := []
  /-- Checkpoint harvested in the prelude of the step at hand (R474). None. -/
  pendCkpt : Option Checkpoint := none
  /-- The boundary procedure has found no work since the last commit: the boundary is idle (R193, log 28). No. -/
  bdone : Bool := false
  /-- The events of this boundary have been applied and its release is still to come (R193, R204). No. -/
  bopen : Bool := false
  /-- What the prelude of the step at hand does (R150, R193). Nothing. -/
  plan : StepPlan := {}
  /-- Events applied and not yet in a decision record (R196). Empty. -/
  evts : List (Nat × Nat × Nat × Nat) := []
  /-- Last committed step of a rebuild in progress (R475). None. -/
  rebuildTo : Option Nat := none
  /-- Output numbers of the step reports by step, for replay (R288). Empty. -/
  reports : Sparse Nat := []
  /-- Class and LOC of each stop since the last commit (R472). Empty. -/
  stops : List (Nat × Nat) := []
  /-- Recovery that the last stop asks for: the ACTION of its record (R466). 0. -/
  recover : Nat := 0
  /-- The last released step numbers, to tell a replay (R207). None. -/
  lastReleased : Option Nat := none
  /-- Snapshot on the active unit: what its prelude harvests, with the lowest number not consumed of each input channel
  (R349). None. -/
  snapshot : Option (Checkpoint × List (Nat × Nat)) := none
  /-- DATA pages of a context scrub, with their entries, to be allocated again when it ends (R435). Empty. -/
  realloc : List (Nat × DWord) := []
  pw : PartPower := {}
  deriving DecidableEq, Repr

/-- An entry of an input channel's log ring (R282). -/
structure LogEntry where
  seq : Nat := 0
  tick : Nat := 0
  /-- Position in units since the ring was set up, and length in units. -/
  pos : Nat := 0
  units : Nat := 0
  frame : Bytes := []
  /-- Consumed (R284). No. -/
  used : Bool := false
  /-- Taken by a STRIN of the step that has not committed (R284). No. -/
  taken : Bool := false
  /-- The stream entry whose datagram it holds (R326, R328). None. -/
  stream : Option Nat := none
  deriving DecidableEq, Repr

/-- An input channel (R282, R301, R303). -/
structure InChan where
  configured : Bool := false
  /-- Next expected number, 64 bits. 0. -/
  next : Nat := 0
  ring : Ring := {}
  entries : List LogEntry := []
  /-- Log writes not yet acknowledged: sequence number, plaintext frame, and where it arrived: host port 0 or 1, or 2 and the number of
  the stream entry (R283, R326). -/
  writing : List (Nat × Bytes × Nat) := []
  deriving DecidableEq, Repr

/-- An output channel (R129, R287, R301, R306). -/
structure OutChan where
  configured : Bool := false
  discard : Bool := false
  ports : Nat := 0
  next : Nat := 0
  watermark : Nat := 0
  /-- Copy of the watermark in the log (R287). 0. -/
  logMark : Nat := 0
  deriving DecidableEq, Repr

/-- A frame in a function's egress (R298, R306). -/
structure OutFrame where
  typ : Nat := 0
  chan : Nat := 0
  ctx : Nat := 0
  flags : Nat := 0
  seq : Nat := 0
  ref : Nat := 0
  payload : Bytes := []
  /-- Control frame bound for one port (R302, R303, R493). -/
  port : Option Nat := none
  /-- Ports to which it has been written. -/
  sent : List Nat := []
  deriving DecidableEq, Repr

/-- A mailbox command accepted and not yet answered (R311). -/
structure Cmd where
  seq : Nat := 0
  port : Nat := 0
  payload : Bytes := []
  /-- Acceptance tick (R193). -/
  tick : Nat := 0
  deriving DecidableEq, Repr

/-- A function's state shared by both ports (R292, R306, R311). -/
structure Fn where
  inch : Sparse InChan := []
  outch : Sparse OutChan := []
  egress : List OutFrame := []
  /-- Commands accepted and not started, oldest first. -/
  cmds : List Cmd := []
  /-- B commands accepted, waiting for a boundary (R311). -/
  bcmds : List Cmd := []
  /-- Commands started and answered later: PART_DELETE, PLATE_UNLOAD, CTX_CLOSE and others (R311). -/
  open_ : List Cmd := []
  /-- The last 64 answers: command number and RESP payload (R311). -/
  answers : List (Nat × Bytes) := []
  /-- Accepted MIRROR frames not yet taken (R343). -/
  mirrors : List Bytes := []
  /-- Open images and the number of the next handle (R314). -/
  images : Sparse (Option OpenImg) := []
  nextImg : Nat := 1
  /-- Frames that a reset has taken from egress after one of their two rings had them: channel, number and ports (R288, R317).
  Empty. -/
  half : List (Nat × Nat × List Nat) := []
  /-- Next expected number of PF0's channel 0, whose commands are not logged (R304). -/
  cmdNext : Nat := 0
  deriving DecidableEq, Repr

/-- A session of a function on a port (R309, R426). -/
structure Session where
  inKey : Bytes := []
  outKey : Bytes := []
  inCount : Nat := 0
  outCount : Nat := 0
  deriving DecidableEq, Repr

/-- BAR0 state of one function on one port (R293 to R296, R305 to R310). -/
structure HostPort where
  /-- HP_STAT, bits 3-0. 0. -/
  stat : Word := 0
  /-- HP_CTL, bits 3-0. 0. -/
  ctl : Word := 0
  /-- D, 32 bits. 0. -/
  pos : Nat := 0
  /-- C, 32 bits. 0x0000_1000. -/
  credit : Nat := 4096
  disc : Nat := 0
  /-- HP_RING_BASE, 64 bits. 0. -/
  base : Nat := 0
  /-- HP_RING_SIZE: log2. 0. -/
  size : Nat := 0
  head : Nat := 0
  tail : Nat := 0
  /-- HP_STATUS, 64 bits. 0. -/
  statusAddr : Nat := 0
  irqMod : Word := 0
  ringFull : Nat := 0
  nacks : Nat := 0
  /-- MSI-X table: four entries of four words (R293). PRESUMED masked, address and data 0 (PCIe, log 158). -/
  msix : Sparse Word := []
  pba : Nat := 0
  /-- Negotiated version VSEL. 0. -/
  vsel : Nat := 0
  session : Option Session := none
  /-- Number of the channel-0 frame that is the last under the session's keys (R427). None. -/
  endAfter : Option Nat := none
  /-- Max Payload Size in bytes, as the host programs it (R290). PRESUMED 128 (PCIe, log 158). -/
  mps : Nat := 128
  /-- Enable and Function Mask of the MSI-X capability (R290). PRESUMED 0, 0 (PCIe, log 158). -/
  msixOn : Bool := false
  msixMask : Bool := false
  /-- Error status of AER, a bit each (R290). 0. -/
  aer : Nat := 0
  /-- Held words of the aperture, by stream position (R294). Empty. -/
  words : Sparse (Option (BitVec 64)) := []
  /-- Input buffer: drained bytes not yet parsed, at most 128 KiB (R294). Empty. -/
  inbuf : Bytes := []
  /-- The frame at the front of the input buffer was partly drained when a reset occurred: it is never accepted (R296). No. -/
  cut : Bool := false
  /-- Frame alignment is lost: drained bytes are discarded (R296). No. -/
  desync : Bool := false
  /-- Frames written and not signalled, and the tick of the oldest (R308). -/
  irqPend : Nat := 0
  irqTick : Option Nat := none
  /-- A host write was held off at the credit limit (R308). No. -/
  heldOff : Bool := false
  /-- FLR in progress overtaken by a compute reset (R391). No. -/
  inFlr : Bool := false
  deriving DecidableEq, Repr

/-- A stream entry (R322, R328, R331). -/
structure StreamEntry where
  /-- The 48 bytes of R322. -/
  raw : Bytes := []
  /-- SSRC held by an entry with SSRC 0 (R322). None. -/
  ssrc : Option Nat := none
  /-- Silence deadline tick, while armed (R328). None. -/
  silence : Option Nat := none
  /-- Picture latency deadlines armed: RTP timestamp and tick (R328). Empty. -/
  lat : List (Nat × Nat) := []
  /-- Reflex deadlines of requests not yet answered (R328). Empty. -/
  reflexDl : List Nat := []
  /-- Answer counter (R331). 0. -/
  answers : Nat := 0
  /-- RTP reorder window: packets held, at most 64 (R327). Empty. -/
  window : List (Nat × Bytes) := []
  rtpNext : Option Nat := none
  /-- Fragment being put together (R327). Empty. -/
  frag : Bytes := []
  deriving DecidableEq, Repr

/-- A reflex request in a queue, with what its answer needs (R330, R331). -/
structure ReflexReq where
  port : Nat := 0
  ethSrc : Nat := 0
  vlan : Option Nat := none
  srcIp : Nat := 0
  dstIp : Nat := 0
  srcPort : Nat := 0
  tick : Nat := 0
  seq : Nat := 0
  payload : Bytes := []
  deriving DecidableEq, Repr

/-- A secure association: SAK and next packet number (R321). -/
structure SecAssoc where
  sak : Bytes := []
  pn : Nat := 0
  deriving DecidableEq, Repr

/-- A link of the module: H0, H1, S0, S1, M, A are 0 to 5 (R335, R479, R486 to R488). -/
structure Link where
  up : Bool := false
  /-- Lanes in use. 0. -/
  width : Nat := 0
  /-- The spare lane pair carries a retired lane. No. -/
  remap : Bool := false
  /-- Retired lanes, held by the Watchtower (R488). None. -/
  retired : List Nat := []
  /-- Lane map is settled for the next training: the partner supports remap, its retired lanes, its two-lane offer. -/
  partner : Option (Nat × Bool) := none
  /-- Ticks of losses of lock of each lane within the last second (R476). -/
  losses : Sparse (List Nat) := []
  /-- Far-end identity recorded last (R335), whether it is unexpired, and its expiry tick. None. -/
  far : Option FarEnd := none
  farValid : Bool := false
  farExpiry : Nat := 0
  /-- Tick of the last LLDPDU sent (R335). None. -/
  lldpAt : Option Nat := none
  deriving DecidableEq, Repr

/-- A stream port (R320, R321, R336). -/
structure StreamPort where
  /-- MAC address, fixed at manufacture (R320): log 9. -/
  mac : Nat := 0
  /-- STP_STAT, bits 4-0. 0. -/
  stat : Word := 0
  fecLock : Bool := false
  rxDrop : Nat := 0
  seqGap : Nat := 0
  fecCe : Nat := 0
  fecUe : Nat := 0
  reflexDrop : Nat := 0
  reflexLate : Nat := 0
  reflexLast : Nat := 0
  reflexMax : Nat := 0
  /-- MACsec enabled (R321). 0. -/
  macsec : Bool := false
  rxSa : Sparse (Option SecAssoc) := []
  txSa : Sparse (Option SecAssoc) := []
  txAn : Nat := 0
  replayWin : Nat := 0
  /-- Highest packet number received on each association (R321). 0. -/
  rxPn : Sparse Nat := []
  deriving DecidableEq, Repr

/-- Port addresses, kept in the persistent store (R421, R422). -/
structure PortAddr where
  vid : Nat := 0
  ipv4 : Nat := 0
  ipv6 : Nat := 0
  prefixLen : Nat := 0
  deriving DecidableEq, Repr

/-- Pair states (R338). -/
inductive PairState where
  | unpaired | wait | standby | active | hold | stale | resync | isolated
  deriving DecidableEq, Repr

/-- A snapshot that a function receives (R343, R350). -/
structure SnapRx where
  /-- A SNAP_BEGIN has come. No. -/
  begun : Bool := false
  /-- S of the snapshot, from the header of SNAP_BEGIN. -/
  step : Nat := 0
  /-- Body of SNAP_BEGIN. -/
  head : Bytes := []
  /-- Its handles and measurements are those of this module. -/
  ok : Bool := false
  /-- The bodies so far, in order, and their number. -/
  body : Bytes := []
  frames : Nat := 0
  /-- Pieces of the firmware's tables. -/
  dome : Bytes := []
  /-- Quarters of pages: row, entry, offset and bytes. -/
  pages : List (Nat × DWord × Nat × Bytes) := []
  deriving DecidableEq, Repr

/-- Paired operation (R337 to R351). -/
structure Pair where
  st : PairState := .unpaired
  term : Nat := 0
  pserial : Nat := 0
  pairnum : Nat := 0
  pmask : Nat := 0
  /-- Lease expiry tick (R341). None. -/
  lease : Option Nat := none
  /-- HEALTH SUSPECT until the next cold reset (R337). No. -/
  suspect : Bool := false
  /-- HEALTH DEGRADED by a failed snapshot (R350). No. -/
  snapFailed : Bool := false
  /-- Line frames sent since cold reset (R340). 0. -/
  count : Nat := 0
  /-- Line frames discarded (R340). 0. -/
  bad : Nat := 0
  /-- Tick of the last valid ROLE frame, and whether ARBITER_LINK was raised in this silence (R340). -/
  lastRole : Option Nat := none
  silent : Bool := false
  /-- Identity of the far end of port A: serial and slot (R340). None. -/
  arb : Option (Nat × Nat) := none
  /-- Partition and step of the last record held at the promotion to ACTIVE, which the unit still executes (R345). None. -/
  catchTo : List (Nat × Nat) := []
  /-- Tick of the last line frame sent (R339). None. -/
  beatAt : Option Nat := none
  /-- Sequence number of the PAIR_RESYNC to be answered (R350). None. -/
  resyncCmd : Option Nat := none
  /-- Sequence number of the PAIR_SNAPSHOT to be answered; its partitions that are still to be planned, and those that have
  been sent, a bit each (R349). None, 0, 0. -/
  snapCmd : Option Nat := none
  snapLeft : Nat := 0
  snapSent : Nat := 0
  /-- Snapshots being received, by partition, and the partitions restored since PAIR_RESYNC, a bit each (R350). -/
  rx : Sparse SnapRx := []
  snapDone : Nat := 0
  deriving DecidableEq, Repr

/-- Power, droop and heat of a block (R355, R356, R362, R369 to R372). -/
structure Block where
  /-- Out of service (R72, R398). No. -/
  oos : Bool := false
  /-- Power domain on (R354). Off outside every partition. -/
  on : Bool := false
  /-- V/F point. 0. -/
  point : Nat := 0
  /-- Point change latched during a stretch (R370). None. -/
  latched : Option Nat := none
  /-- Tick at which a beat stretch began (R369). None. -/
  stretch : Option Nat := none
  /-- Stretched beats above threshold are awaited; thermal limit (R372). 15. -/
  tlimit : Nat := 15
  /-- THERMAL holds the block at point 0 until below 95 °C (R372). No. -/
  hot : Bool := false
  /-- Tick of the last thermal step (R372). None. -/
  thermAt : Option Nat := none
  /-- Last junction temperature in 0.1 °C (R372). 0 (log 5). -/
  temp : Nat := 0
  /-- Sequencer cycles of the limiter's last grants (R121). Empty. -/
  grants : List Nat := []
  deriving DecidableEq, Repr

/-- The power controller's global window and state (R360 to R374, R376). -/
structure Power where
  /-- PWR_CAP_SET, 8 bits. 0x8C. -/
  capSet : Nat := 140
  /-- Applied cap and floor of PWR_CAP_NOW, in 10 W. 0x8C and 0. -/
  capNow : Nat := 140
  floorNow : Nat := 0
  /-- PWR_IN: mean power in 0.1 W and voltage in 10 mV. 0. -/
  meanIn : Nat := 0
  volts : Nat := 0
  /-- Sums of the power and voltage samples of the running millisecond and their number (R360). 0. -/
  accIn : Nat := 0
  accVolts : Nat := 0
  nIn : Nat := 0
  /-- W1C bits of PWR_STAT: COOLANT_HOT, CAP_RAISED, CAP_IGN, CLAMP at bits 4, 3, 2, 0. 0. -/
  stat : Word := 0
  clamps : Nat := 0
  coolIn : Nat := 0
  coolOut : Nat := 0
  /-- PWR_E_MOD, 64 bits: its µJ, counted in 1/100,000 µJ. 0. -/
  energy : Nat := 0
  /-- PWR_GAIN, 16 bits. 0x4000. -/
  gain : Nat := 16384
  /-- Tick at which the clamp was triggered, until its hold ends (R368). None. -/
  clampAt : Option Nat := none
  /-- The partitions climb after a clamp: tick of the last rise (R368). None. -/
  climbAt : Option Nat := none
  /-- Queue energies 0-11, 64 bits: their µJ, counted in 1/163,840 µJ (R376). 0. -/
  queues : Sparse Nat := []
  /-- Interval counter for the duty cycle (R367). 0. -/
  interval : Nat := 0
  /-- Tick of the last power interval and gain update (R360, R365). None. -/
  lastInt : Option Nat := none
  lastGain : Option Nat := none
  lastSample : Option Nat := none
  deriving DecidableEq, Repr

/-- A NAL unit, a LOSS marker or the end of an access unit on its way to a decoder (R253, R327). -/
inductive NalItem where
  | nal (b : Bytes) | loss | auEnd (ts : Nat)
  deriving DecidableEq, Repr

/-- A decoded picture in the decoded picture buffer, or on its way to the shaper (R253, R257, R258, R262): the access unit that coded
it, its slot of picture storage, PICNUM, flags of R259, RTP timestamp, size, bit depth, conformance window and samples. -/
structure Picture where
  au : Nat := 0
  slot : Nat := 0
  num : Nat := 0
  flags : Nat := 0
  ts : Nat := 0
  width : Nat := 0
  height : Nat := 0
  depth : Nat := 8
  window : Window := {}
  planes : Planes := {}
  deriving DecidableEq, Repr

/-- An encode job (R265, R266). -/
structure EncJob where
  set : Nat := 0
  key : Bool := false
  deriving DecidableEq, Repr

/-- A video context (R249 to R268). -/
structure VidCtx where
  part : Nat := 0
  /-- The partition's number for the context (R314). -/
  vctx : Nat := 0
  /-- The 128-byte parameter block (R251). -/
  params : Bytes := []
  /-- Coded data waiting for the entropy engine. -/
  input : List NalItem := []
  /-- All NAL units and markers taken so far, of which the pictures are a function (R253). -/
  seen : List NalItem := []
  /-- Pictures ready for the shaper, and the concealment source (R257). None. -/
  out : List Picture := []
  src : Option Picture := none
  /-- Decoder discards up to the next IDR or IRAP (R259). -/
  discarding : Bool := false
  discarded : Nat := 0
  gap : Bool := false
  nextPic : Nat := 0
  overrun : Bool := false
  /-- Buffer sets in use (R262). -/
  used : List Nat := []
  /-- Picture whose tiles are being written: set and picture. -/
  shaping : Option (Nat × Picture) := none
  /-- Pictures shaped: PICNUM and set, or dropped (R264). -/
  shaped : List (Nat × Option Nat) := []
  /-- Next place in the ready ring (R263). -/
  ring : Nat := 0
  jobs : List EncJob := []
  keyReq : Bool := false
  /-- Access units taken, and the decoded picture buffer (R253, R258). -/
  auNum : Nat := 0
  dpb : List Picture := []
  /-- Input buffers that the running step has harvested to (R265). -/
  harvested : List Nat := []
  /-- Input buffers that a committed step has harvested to and whose jobs the boundary is to submit (R265, R266). -/
  toSubmit : List Nat := []
  /-- Encoder: pictures coded, reconstruction of the last, fullness F, last row QP, pictures since IDR (R266 to R268). -/
  coded : Nat := 0
  ref : Planes := {}
  full : Nat := 0
  lastQp : Nat := 0
  sinceIdr : Nat := 0
  /-- Slices coded and not yet sent: flags and bytes (R265). -/
  slices : List (Nat × Bytes) := []
  /-- VCTX_CLOSE waits for the last picture (R313). -/
  closeCmd : Option Nat := none
  deriving DecidableEq, Repr

/-- A video pair (R247 to R249, R269). -/
structure VidPair where
  owner : Option Nat := none
  scrub : Bool := false
  releaseCmd : Option Nat := none
  /-- VID_STAT, bits 4-0. 0. -/
  stat : Word := 0
  decPix : Nat := 0
  encPix : Nat := 0
  /-- Bytes and pictures in the syntax buffer (R247, R269). 0. -/
  synBytes : Nat := 0
  ahead : Nat := 0
  ovr : Nat := 0
  ctxs : Sparse (Option VidCtx) := []
  /-- Context served last, by decode and encode alike (R249). -/
  last : Nat := 7
  deriving DecidableEq, Repr

/-- States of the sparing machine (R279). -/
inductive SpareState where
  | normal | copying | spared | exposed
  deriving DecidableEq, Repr

/-- A DDR4 channel (R270 to R281, R289, R402, R403). -/
structure DdrChan where
  /-- DDR_OWN. No owner. -/
  owner : Option Nat := none
  /-- Previous owner still holding keys (R272). None. -/
  prev : Option Nat := none
  /-- W1C bits of DDR_STAT: EXPOSED_EV, UE, CE at bits 2-0. 0. -/
  stat : Word := 0
  /-- SPARE_ST and FAILED, kept by the Watchtower (R279, R289). NORMAL, 31. -/
  sp : SpareState := .normal
  failed : Nat := 31
  /-- Device whose copy to the spare runs (R279). None. -/
  copyDev : Option Nat := none
  /-- Device whose failure exposed the channel (R279). None. -/
  exposedDev : Option Nat := none
  selfRef : Bool := false
  /-- Training results are held (R402). No. -/
  trained : Bool := false
  /-- Out of service (R402, R403). No. -/
  oos : Bool := false
  /-- The last test failed a device (R407). No. -/
  newFail : Bool := false
  ce : Nat := 0
  ue : Nat := 0
  /-- DDR_CE_LIM, 16 bits. 0x40. -/
  ceLim : Nat := 64
  lastErr : Word := 0
  /-- Ticks of each device's corrected codewords of the last second (R279). -/
  ceTicks : Sparse (List Nat) := []
  /-- Consecutive wrong codewords: device and number (R279). -/
  run : Nat × Nat := (31, 0)
  /-- Writes issued and not acknowledged: cell and operation (R280). -/
  writes : List (Nat × Nat) := []
  /-- Tick of the last ZQ calibration (R280). None. -/
  zq : Option Nat := none
  /-- Tick of the last Dome access that woke the channel (R455). None. -/
  woke : Option Nat := none
  deriving DecidableEq, Repr

/-- A tenant (R272 to R275). -/
structure Tenant where
  present : Bool := false
  /-- Number of the tenant key (R274). None. -/
  key : Option Nat := none
  /-- SHARED ranges 0-15: first page and count (R274). -/
  ranges : Sparse (Option (Nat × Nat)) := []
  deriving DecidableEq, Repr

/-- States of a Dome core (R451). -/
inductive CoreState where
  | spare | run | failed
  deriving DecidableEq, Repr

/-- A Dome core and its part of the DIC (R451, R456, R458 to R463). -/
structure Core where
  st : CoreState := .spare
  /-- CAUSE, 2 bits, kept in the persistent store with the failure (R451). 0. -/
  cause : Nat := 0
  /-- Tick of the last DOME_KICK or start (R451). -/
  kick : Nat := 0
  /-- Address at which the core was started (R451). -/
  entry : Nat := 0
  /-- Claimed source, or none (R458). -/
  claim : Option Nat := none
  compIgn : Bool := false
  soft : Bool := false
  /-- DIC_TIMER, 64 bits. 0. -/
  timer : Nat := 0
  deriving DecidableEq, Repr

/-- The Dome cluster and the DIC (R450 to R463). -/
structure Dome where
  cores : Sparse Core := []
  /-- DOME_BOOT, 64 bits. 0x8000_0000. -/
  boot : Nat := 0x80000000
  startIgn : Bool := false
  accAddr : Nat := 0
  /-- DOME_ACC_STAT, bits 4-0. 0. -/
  accStat : Word := 0
  /-- Enabled sources (R458). None. -/
  enable : List Nat := []
  /-- Pending edge sources (R457). None. -/
  pend : List Nat := []
  /-- Edge sources whose event occurred while claimed (R460). None. -/
  refire : List Nat := []
  /-- Target masks, 8 bits (R458). At a start of the firmware: the lowest-numbered core in RUN (R462). -/
  target : Sparse Nat := []
  /-- DIC_SPUR, 32 bits. 0. -/
  spur : Nat := 0
  /-- Unread message in the Watchtower mailbox (R457). No. -/
  wtMsg : Bool := false
  deriving DecidableEq, Repr

/-- States of a firmware slot (R440). -/
inductive SlotState where
  | empty | writing | pending | trial | current | previous | failed
  deriving DecidableEq, Repr

/-- A firmware slot and its image (R440). -/
structure FwSlot where
  st : SlotState := .empty
  version : Nat := 0
  setVer : Nat := 0
  meas : Bytes := []
  image : Bytes := []
  deriving DecidableEq, Repr

/-- A settings copy: SET_VER, write count, CRC valid (R448). -/
structure Settings where
  setVer : Nat := 0
  writes : Nat := 0
  crcOk : Bool := false
  body : Bytes := []
  deriving DecidableEq, Repr

/-- Firmware state of the Watchtower (R438 to R449). -/
structure Firmware where
  a : FwSlot := {}
  b : FwSlot := {}
  fbCount : Nat := 0
  /-- Slot running: 0 A, 1 B. -/
  running : Nat := 0
  /-- The Watchtower's firmware copy: version, SET_VER, measurement. -/
  version : Nat := 0
  setVer : Nat := 0
  meas : Bytes := []
  forfort : Bool := false
  /-- Slots whose flash does not hold what is written into it, so that its read-back differs (R442). None (DESIGN CHOICE, log 41). -/
  badSlots : List Nat := []
  /-- Open transfer: slot, length and bytes written (R441). -/
  xfer : Option (Nat × Nat) := none
  data : Sparse (Option Byte) := []
  /-- Expiry tick of the confirmation window (R445). None. -/
  window : Option Nat := none
  /-- FW_ACTIVATE to be answered by the new firmware (R443). None. -/
  activate : Option Nat := none
  set0 : Settings := {}
  set1 : Settings := {}
  /-- Settings in force (R448). -/
  inForce : Settings := {}
  /-- Partitions that have yet to commit or return to BOUNDARY for a confirmation (R445). -/
  waiting : List Nat := []
  deriving DecidableEq, Repr

/-- An operator key (R418). -/
structure OperKey where
  role : Nat := 0
  key : Bytes := []
  deriving DecidableEq, Repr

/-- The Watchtower: identity, keys, management protocol (R408 to R431). -/
structure Watch where
  /-- Module serial, from fuses (R396): log 9. -/
  serial : Nat := 1
  /-- Device identity seed and certificate (R424, R429): log 9. -/
  idSeed : Bytes := []
  cert : Bytes := []
  /-- Trearis licence and firmware public keys, in ROM (R424): log 9. -/
  licKey : Bytes := []
  fwKey : Bytes := []
  /-- SHA-512 of the ROM (R430): log 9. -/
  romHash : Bytes := []
  /-- Boot nonce and boot X25519 private key (R415). -/
  nonce : Nat := 0
  bootKey : Bytes := []
  oper : Sparse (Option OperKey) := []
  /-- Plate keys: 4 per tenant, at 4 × tenant + index (R421). -/
  plateKeys : Sparse (Option Bytes) := []
  /-- Host pins by function (R428). -/
  pins : Sparse (Option Bytes) := []
  /-- Highest CTR accepted, last command and stored RESP of each slot (R414, R415). -/
  ctr : Sparse Nat := []
  lastCmd : Sparse (Option Bytes) := []
  lastResp : Sparse (Option Bytes) := []
  /-- Commands held, at most 8: frame and where to answer (R417). -/
  held : List (Bytes × Nat) := []
  discards : Nat := 0
  /-- Licence installed (R408, R409). None. -/
  licence : Option Bytes := none
  /-- The licence is in force (R410). No. -/
  licValid : Bool := false
  addrs : Sparse PortAddr := []
  evAddr : Nat := 0
  evPort : Nat := 0
  evNum : Nat := 0
  /-- MAC address of port M, fixed at manufacture (R320, R412): log 9. -/
  mac : Nat := 0
  /-- Keys alive in the key store: the numbers of the XTS keys drawn (R424). -/
  keys : List Nat := []
  modKey : Option Nat := none
  deriving DecidableEq, Repr

/-- A fault record before it is numbered (R464). -/
structure FaultRec where
  cls : Nat := 0
  reason : Nat := 0
  scope : Nat := 0
  action : Nat := 0
  part : Nat := 255
  rflags : Nat := 0
  count : Nat := 1
  tick : Nat := 0
  step : Nat := 0
  num : Nat := 0
  loc : Nat := 0
  detail : Nat := 0
  deriving DecidableEq, Repr

/-- A collection window (R469). -/
structure FaultWindow where
  rec_ : FaultRec := {}
  opened : Nat := 0
  /-- Occurrences collected since. -/
  extra : Nat := 0
  deriving DecidableEq, Repr

/-- Fault records (R464 to R470). -/
structure FaultLog where
  /-- NUM of the next record. 0. -/
  num : Nat := 0
  /-- Last 256 records. -/
  hist : List FaultRec := []
  /-- Last 64 records with PERSIST, kept across every reset and power cycle. -/
  persist : List FaultRec := []
  /-- Totals of classes 1-24, 16 bits. 0. -/
  totals : Sparse Nat := []
  /-- Open collection windows, by a key of the model. -/
  windows : Sparse (Option FaultWindow) := []
  nextKey : Nat := 0
  deriving DecidableEq, Repr

/-- The clock unit (R377 to R386). -/
structure Clock where
  /-- The deadline tick, 64 bits. 0. -/
  tick : Nat := 0
  /-- The tick runs (R379). No. -/
  running : Bool := false
  /-- Straps on the backplane, and as sampled (R378): log 9. -/
  pinSlot : Nat := 0
  pinWait : Nat := 0
  pinRcv : Bool := false
  slotId : Nat := 0
  oscWait : Nat := 0
  romRcv : Bool := false
  /-- TRIM_SRC. 0. -/
  trimSrc : Nat := 0
  /-- W1C bits of CLK_STAT: TRIM_LOST, REF_BACK, REF_LOST at bits 5-3. 0. -/
  stat : Word := 0
  trimLock : Bool := false
  onIro : Bool := false
  refOk : Bool := false
  trim : Nat := 0
  fmcSel : Word := 0
  fmcWin : Word := 1
  fmcCnt : Nat := 0
  /-- CLK_FMC_STAT, bits 4-0. 0. -/
  fmcStat : Word := 0
  ncomp : Nat := 0
  source : Nat := 0
  kind : Nat := 1
  deriving DecidableEq, Repr

/-- Bring-up and repair (R70 to R72, R393 to R407). -/
structure BringUp where
  /-- Phases of R393 that have ended. None. -/
  ended : List Nat := []
  /-- KIND, FULL, FAILED, READY, SLOT of BRU_STAT. 1, 0, 0, 0, 0. -/
  kind : Nat := 1
  full : Bool := false
  failed : Bool := false
  isReady : Bool := false
  slot : Nat := 0
  /-- Bring-up and compute are halted until a cold reset (R352, R372, R484). No. -/
  halted : Bool := false
  /-- BRU_TIME and the tick of the trigger. 0. -/
  time : Nat := 0
  trigger : Nat := 0
  /-- Cells failed and rows replaced in the last bring-up. 0. -/
  newCells : Nat := 0
  newRows : Nat := 0
  /-- Fused defects of each row: physical columns (R70). None (log 6). -/
  fusedDef : Sparse (List Nat) := []
  /-- Defects that the row's map is built from, in effect (R70, R396). -/
  defects : Sparse (List Nat) := []
  /-- Rows without a spare cell (R72). None. -/
  noSpare : List Nat := []
  /-- Aged ceilings of physical cells that no logical cell maps to, by row × 34 + column (R59, R397). -/
  physAged : Sparse (Option Nat) := []
  /-- Offset of the quick DDR4 test (R402). -/
  ddrOff : Nat := 0
  /-- Depth of the reset in progress: 5 cold, 4 warm, 2 compute, 0 none (R391). 5. -/
  depth : Nat := 5
  /-- Partitions that still have to be rebuilt after a compute reset (R388). -/
  rebuilding : List Nat := []
  deriving DecidableEq, Repr

/-- States of the board controller (R481). -/
inductive BoardState where
  | off | on
  deriving DecidableEq, Repr

/-- Board controller and pins (R477 to R485). -/
structure Board where
  st : BoardState := .on
  /-- The module is in P4 (R359). No. -/
  p4 : Bool := false
  /-- MOD_RESET_N has been held low for 10 µs and is still low: the module is held in cold reset (R482). No. -/
  resetLow : Bool := false
  /-- SOURCE that the next power-good reports: 0 power-good, 1 or 2 after MOD_RESET_N or WAKE_N in P4 (R386, R482). 0. -/
  cause : Nat := 0
  /-- The presence contacts opened; only a cold reset resumes (R353). No. -/
  removed : Bool := false
  /-- Tick of the last LOSS line frame (R352). None. -/
  lossAt : Option Nat := none
  /-- THERMAL_TRIP removed power; only a cold reset restarts (R372). No. -/
  tripped : Bool := false
  deriving DecidableEq, Repr

/-- What leaves the module at its ports (the model's own record of it, log 10). -/
inductive Wire where
  /-- A posted write to host memory by a port (R290). -/
  | host (port addr : Nat) (data : Bytes)
  /-- An MSI-X write of a function's vector (R308). -/
  | msix (port func vec : Nat)
  /-- A management frame and where it goes (R413). -/
  | mgmt (dst : Nat) (frame : Bytes)
  /-- A frame sent on a stream port (R331): destination MAC, VLAN, IP, destination and source UDP port, payload, MACsec number. -/
  | stream (port mac : Nat) (vlan : Option Nat) (ip udp src : Nat) (data : Bytes) (pn : Option (Nat × Nat))
  /-- An LLDPDU with its TTL (R335, R352). -/
  | lldp (port ttl serial slot code : Nat)
  /-- A line frame on port A (R339). -/
  | line (frame : Bytes)
  /-- An ARP or neighbour reply (R320): the address, who asked, VLAN, MACsec number. -/
  | neighbour (port target asker : Nat) (vlan : Option Nat) (pn : Option (Nat × Nat))
  /-- An answer to a configuration request: retry status, or completion with what a read returns (R291, R395). -/
  | config (port func : Nat) (retry : Bool) (data : List Nat)
  /-- A latency tolerance message: 5 µs, or no requirement (R290). -/
  | ltr (port : Nat) (us : Option Nat)
  /-- A remap word on a spare pair (R486). -/
  | remap (port : Nat) (word : Bytes)
  deriving DecidableEq, Repr

/-- Memories (R131, R132, R273, R453) and the arrays of the cells (R51, R53). -/
structure Mems where
  /-- Pan array: 16 GiB of bytes at 131,072 × page + offset. All 0 (R160). -/
  pan : List Host.Cell := []
  /-- Staging stores: 262,144 bytes of each cell n at 262,144 × n. 0 (log 5). -/
  ss : List Host.Cell := []
  /-- Cold tier, plaintext, at its byte address (R273). 0 (log 5, log 8). -/
  cold : List Host.Cell := []
  /-- Key under which each 64-byte data unit of the cold tier was written (R273 to R275). None. -/
  coldKey : Sparse Nat := []
  /-- Dome memory, 64 MiB from 0. 0 (log 5). -/
  dome : List Host.Cell := []
  /-- Accumulator words at ((4 n + e) × 2 + tile) × 1,024 + 32 row + column (R51). 0 (log 5). -/
  acc : List (Nat × BitVec 32) := []
  /-- Vector register words at (32 n + register) × 128 + lane (R53). 0 (log 5). -/
  vreg : List (Nat × BitVec 32) := []
  /-- Page table (R143). 0 (R160). -/
  pte : List (Nat × BitVec 64) := []
  /-- Bind sets: entry of slot at ((2 n + set) × 65,536) + slot (R197). 0 (log 5). -/
  bind : List (Nat × BitVec 256) := []
  /-- Check-bit state of Pan codewords (8 bytes each) that hold an error: 1 correctable, 2 uncorrectable (R135). -/
  panErr : Sparse Nat := []
  /-- Codewords corrected once with no write since (R139). -/
  panOnce : Sparse Nat := []
  /-- The same as panErr for the staging stores (R57). -/
  ssErr : Sparse Nat := []
  /-- Codewords of the cold tier, 32 bytes each, that hold an error: their wrong devices, a bit each (R277, R278). -/
  ddrErr : Sparse Nat := []
  deriving DecidableEq, Repr

/-- The state of the module. -/
structure State where
  /-- Commands that wait, oldest first (the model's own queue). Empty. -/
  pending : List Instr := []
  /-- Memories, accumulators, vector registers, page table, bind sets (R51, R53, R131, R143, R197, R273, R453). -/
  mem : Mems := {}
  /-- Cells by logical number n = 32 × row + column (R61, R131). -/
  cells : Sparse CellState := []
  /-- Pans by Pan number (R131). -/
  pans : Sparse PanState := []
  /-- Page-table windows by core (R156). -/
  ptw : Sparse PtWindow := []
  /-- Partitions 0-15 (R74). -/
  parts : Sparse Part := []
  /-- Functions 0-16 (R291). -/
  fns : Sparse Fn := []
  /-- BAR0 of function f on port h at 17 × h + f (R292). -/
  hps : Sparse HostPort := []
  /-- Control counter of each host port, in the outbound direction (R301, R309). 0. -/
  ctrls : Sparse Nat := []
  /-- Stream entries 0-31 (R322). -/
  streams : Sparse (Option StreamEntry) := []
  /-- Reflex input queues, by channel (R330). Empty. -/
  reflexq : Sparse (List ReflexReq) := []
  /-- Request whose answer the last STRIN of each channel took (R331). -/
  reflexCur : Sparse (Option ReflexReq) := []
  /-- Stream ports S0 and S1 (R336). -/
  sports : Sparse StreamPort := []
  /-- Links H0, H1, S0, S1, M, A (R479). -/
  links : Sparse Link := []
  pair : Pair := {}
  blocks : Sparse Block := []
  power : Power := {}
  vpairs : Sparse VidPair := []
  ddr : Sparse DdrChan := []
  tenants : Sparse Tenant := []
  dome : Dome := {}
  fw : Firmware := {}
  watch : Watch := {}
  faults : FaultLog := {}
  clk : Clock := {}
  bru : BringUp := {}
  board : Board := {}
  /-- Sequencer: bundle count MBEAT, 32 bits (R83). 0. -/
  mbeat : Nat := 0
  /-- Sequencer issue cycles counted (R119, R121). 0. -/
  seqCycle : Nat := 0
  /-- Header of the last bundle's PMASK (R83). 0. -/
  pmask : Nat := 0
  /-- Scrubs in progress (R435). None. -/
  scrubs : List Scrub := []
  /-- Pages the fill engines are filling (R155). None. -/
  filling : List Nat := []
  /-- 64-bit pairs: high half latched by a read of the low half, and low half buffered by a write (R5); the key is
  the address of the low half, BAR0 addresses counted from 2^60 + 2^20 × (17 × port + function). None. -/
  latch : Sparse (Option Word) := []
  lowBuf : Sparse (Option Word) := []
  /-- Value the last register or aperture read returned (the model's own). 0. -/
  rdata : Nat := 0
  /-- Frames, writes and messages that have left the module, oldest first (the model's own, log 10). Empty. -/
  wire : List Wire := []
  /-- Free values drawn so far (the model's own, log 3). 0 (DESIGN CHOICE). -/
  freeCtr : Nat := 0
  deriving DecidableEq, Repr

/-- The module right after a cold reset, before bring-up phase 1 ends: every register at its Reset column (R12), the
page table zero (R160), no tenant, no partition, no session; fuses, straps and persistent store as logs 5, 6 and 9. -/
def State.reset : State := {}

/-- Why a step stops with a fault. A fault of the spec is a record and an effect (R464), not a stop of the machine; the
one stop is an input whose outcome the spec calls undefined and for which it gives no effect. -/
inductive Fault where
  /-- Raised by MOD_RESET_N for a low pulse of at least 1 µs and less than 10 µs: "the outcome is undefined" (R482).
  Safe: the machine stops where the hardware may do anything. -/
  | undefinedResetPulse
  deriving DecidableEq, Repr

/-- Why a step is refused. -/
inductive Refusal where
  /-- Raised by the dispatcher for a command that has no meaning yet. Safe. -/
  | notModelled (mnemonic : String)
  deriving DecidableEq, Repr

end Sys2Proof.Machine
end

