-- ==== Sys2Proof/Machine/Num.lean ====
section
/-!
DEFINITION. Number formats and arithmetic (R19 to R48): exact values, one rounding, the formats and their conversions,
MX blocks, the FP32 operations and the correctly rounded elementary functions.
-/
namespace Sys2Proof.Machine

/-- Both sets of flags (R46: the flags are sticky). -/
def Flags.or (a b : Flags) : Flags :=
  { nv := a.nv || b.nv, of := a.of || b.of, uf := a.uf || b.uf, sat := a.sat || b.sat, scl := a.scl || b.scl,
    iov := a.iov || b.iov }

/-- The flags of a list of results. -/
def Flags.all (l : List Flags) : Flags := l.foldl Flags.or {}

namespace Arith

/-- An exact value: a finite one is ± m · 2^e, and keeps the sign of zero (R23). -/
inductive Val where
  | nan
  | inf (neg : Bool)
  | fin (neg : Bool) (m : Nat) (e : Int)
  deriving DecidableEq, Repr

/-- A scalar floating-point layout (R20). -/
structure Layout where
  ebits : Nat
  mbits : Nat
  bias : Nat
  /-- The top exponent holds infinities and NaNs as in IEEE 754. -/
  ieee : Bool
  /-- The encoding of all ones below the sign is the NaN of E4M3. -/
  e4m3 : Bool
  /-- Largest finite magnitude as m · 2^e. -/
  maxM : Nat
  maxE : Int
  canon : Nat
  deriving DecidableEq, Repr

def fp32 : Layout := ⟨8, 23, 127, true, false, 2 ^ 24 - 1, 104, 0x7FC00000⟩
def bf16 : Layout := ⟨8, 7, 127, true, false, 2 ^ 8 - 1, 120, 0x7FC0⟩
def fp16 : Layout := ⟨5, 10, 15, true, false, 2 ^ 11 - 1, 5, 0x7E00⟩
def e4m3 : Layout := ⟨4, 3, 7, false, true, 14, 5, 0x7F⟩
def e5m2 : Layout := ⟨5, 2, 15, true, false, 7, 13, 0x7F⟩
def e3m2 : Layout := ⟨3, 2, 3, false, false, 7, 2, 0⟩
def e2m3 : Layout := ⟨2, 3, 1, false, false, 15, -1, 0⟩
def e2m1 : Layout := ⟨2, 1, 1, false, false, 3, 1, 0⟩

/-- What a format code names (R19). -/
inductive Fmt where
  | flt (l : Layout)
  | int (w : Nat)
  | mxf (l : Layout)
  | mxint8
  | reserved
  deriving DecidableEq, Repr

/-- The format-code table (R19). -/
def fmtOf : Nat → Fmt
  | 0 => .flt fp32 | 1 => .flt bf16 | 2 => .flt fp16 | 3 => .flt e4m3 | 4 => .flt e5m2 | 5 => .flt e2m1
  | 6 => .int 8 | 7 => .int 4 | 8 => .int 32
  | 9 => .mxf e4m3 | 10 => .mxf e5m2 | 11 => .mxf e3m2 | 12 => .mxf e2m3 | 13 => .mxf e2m1 | 14 => .mxint8
  | _ => .reserved

def Layout.width (l : Layout) : Nat := 1 + l.ebits + l.mbits

/-- Element width of a format code in bits (R19). -/
def elemBits (code : Nat) : Nat :=
  match fmtOf code with
  | .flt l => l.width | .int w => w | .mxf l => l.width | .mxint8 => 8 | .reserved => 0

/-- The code names an MX format. -/
def isMx (code : Nat) : Bool := code ≥ 9 && code ≤ 14

/-- The code belongs to the integer family (R19). -/
def isInt (code : Nat) : Bool := code ≥ 6 && code ≤ 8

/-- Bytes of one MX group (R28): 32 scales and 32 blocks. -/
def groupBytes (code : Nat) : Nat := 32 + 128 * elemBits code

/-- The exact value of an encoding (R20). -/
def decode (l : Layout) (b : Nat) : Val :=
  let s := b / 2 ^ (l.ebits + l.mbits) % 2 == 1
  let e := b / 2 ^ l.mbits % 2 ^ l.ebits
  let m := b % 2 ^ l.mbits
  if l.ieee && e == 2 ^ l.ebits - 1 then (if m == 0 then .inf s else .nan)
  else if l.e4m3 && e == 15 && m == 7 then .nan
  else if e == 0 then .fin s m (1 - (l.bias : Int) - l.mbits)
  else .fin s (2 ^ l.mbits + m) ((e : Int) - l.bias - l.mbits)

/-- The integer that a two's complement encoding of width w holds (R24). -/
def toInt (w b : Nat) : Int := if b % 2 ^ w < 2 ^ (w - 1) then (b % 2 ^ w : Nat) else ((b % 2 ^ w : Nat) : Int) - 2 ^ w

/-- Two's complement encoding (R24). -/
def ofInt (w : Nat) (i : Int) : Nat := (i % (2 ^ w : Nat)).toNat

/-- An integer as an exact value. -/
def Val.ofInt (i : Int) : Val := .fin (i < 0) i.natAbs 0

/-- The signed mantissa of a finite value. -/
def Val.sm : Val → Int
  | .fin s m _ => if s then -(m : Int) else m
  | _ => 0

/-- The exponent of a finite value. -/
def Val.ex : Val → Int
  | .fin _ _ e => e
  | _ => 0

def Val.isZero : Val → Bool
  | .fin _ 0 _ => true
  | _ => false

def Val.isNan : Val → Bool
  | .nan => true
  | _ => false

def Val.isInf : Val → Bool
  | .inf _ => true
  | _ => false

def Val.neg? : Val → Bool
  | .nan => false
  | .inf s => s
  | .fin s _ _ => s

/-- The rounding modes (R32). -/
inductive Mode where
  | rne | rtz | rdn | rup
  deriving DecidableEq, Repr

def modeOf : Nat → Mode
  | 0 => .rne | 1 => .rtz | 2 => .rdn | _ => .rup

/-- Rounds the quotient n / d of naturals to an integer by the mode, for a value of the given sign. -/
def roundQ (mode : Mode) (neg : Bool) (n d : Nat) : Nat :=
  let q := n / d
  let r := n % d
  let up := match mode with
    | .rne => decide (2 * r > d) || (2 * r == d && q % 2 == 1)
    | .rtz => false
    | .rdn => neg && decide (r > 0)
    | .rup => !neg && decide (r > 0)
  if up then q + 1 else q

/-- 2^k for a non-negative k, else 1. -/
def p2 (k : Int) : Nat := 2 ^ k.toNat

/-- floor(log2(n / d)) for positive n and d. -/
def flog2 (n d : Nat) : Int :=
  let k : Int := (n.log2 : Int) - d.log2
  -- n / d lies in (2^(k-1), 2^(k+1))
  if n * p2 (-k) ≥ d * p2 k then k else k - 1

/-- Rounds the magnitude n / d · 2^e to a precision of mbits + 1 bits with least exponent `least`: the integer and its
exponent. -/
def roundAt (mode : Mode) (neg : Bool) (n d : Nat) (e : Int) (mbits : Nat) (least : Int) : Nat × Int :=
  if n == 0 then (0, least) else
    let top := flog2 n d + e
    let q := max (top - mbits) least
    (roundQ mode neg (n * p2 (e - q)) (d * p2 (q - e)), q)

/-- m · 2^e is greater than m' · 2^e'. -/
def magGt (m : Nat) (e : Int) (m' : Nat) (e' : Int) : Bool := m * p2 (e - e') > m' * p2 (e' - e)

/-- The encoding of a rounded magnitude r · 2^q inside the finite range of a layout (R20). -/
def pack (l : Layout) (neg : Bool) (r : Nat) (q : Int) : Nat :=
  let s := if neg then 2 ^ (l.ebits + l.mbits) else 0
  let (r, q) := if r ≥ 2 ^ (l.mbits + 1) then (r / 2, q + 1) else (r, q)
  if r < 2 ^ l.mbits then s + r
  else s + (q + l.mbits + l.bias).toNat * 2 ^ l.mbits + (r - 2 ^ l.mbits)

/-- The largest finite encoding of a sign. -/
def largest (l : Layout) (neg : Bool) : Nat :=
  pack l neg l.maxM l.maxE

/-- The encoding of an infinity, in a layout that has them. -/
def infinity (l : Layout) (neg : Bool) : Nat :=
  (if neg then 2 ^ (l.ebits + l.mbits) else 0) + (2 ^ l.ebits - 1) * 2 ^ l.mbits

/-- The mode rounds an overflow of this sign away from zero (R34). -/
def outward (mode : Mode) (neg : Bool) : Bool :=
  match mode with
  | .rne => true | .rtz => false | .rdn => neg | .rup => !neg

/-- Rounds the finite magnitude n / d · 2^e of a sign to a scalar floating-point layout, with the flags (R34). -/
def toFloat (l : Layout) (mode : Mode) (sat : Bool) (neg : Bool) (n d : Nat) (e : Int) : Nat × Flags :=
  let (r, q) := roundAt mode neg n d e l.mbits (1 - (l.bias : Int) - l.mbits)
  if magGt r q l.maxM l.maxE then
    if sat || !(l.ieee || l.e4m3) then (largest l neg, { sat := true })
    else if outward mode neg then
      (if l.e4m3 then (l.canon, { of := true, nv := true }) else (infinity l neg, { of := true }))
    else (largest l neg, { of := true })
  else (pack l neg r q, { uf := n != 0 && r == 0 })

/-- Rounds and saturates a finite value to an integer width (R34). -/
def toIntFmt (w : Nat) (mode : Mode) (neg : Bool) (m : Nat) (e : Int) : Nat × Flags :=
  let r := roundQ mode neg (m * p2 e) (p2 (-e))
  let lim := if neg then 2 ^ (w - 1) else 2 ^ (w - 1) - 1
  let i : Int := if neg then -((min r lim : Nat) : Int) else (min r lim : Nat)
  (ofInt w i, { sat := r > lim, uf := m != 0 && r == 0 })

/-- Conversion of an exact value to a scalar format (R34). An infinity that SAT 1 delivers as the largest finite number of a format with
infinities sets the flag SAT, for which R34 lists no flag (log 147). -/
def convert (code : Nat) (mode : Mode) (sat : Bool) (v : Val) : Nat × Flags :=
  match fmtOf code, v with
  | .flt l, .nan => if l.ieee || l.e4m3 then (l.canon, {}) else (0, { nv := true })
  | .flt l, .inf s =>
    if l.ieee then (if sat then (largest l s, { sat := true }) else (infinity l s, {}))
    else if l.e4m3 && !sat then (l.canon, { nv := true })
    else (largest l s, { nv := true, sat := true })
  | .flt l, .fin s m e => toFloat l mode sat s m 1 e
  | .int _, .nan => (0, { nv := true })
  | .int w, .inf s => (if s then 2 ^ (w - 1) else 2 ^ (w - 1) - 1, { nv := true, sat := true })
  | .int w, .fin s m e => toIntFmt w mode s m e
  | _, _ => (0, {})

/-- The exact value of a scalar encoding of a format code. -/
def valueOf (code b : Nat) : Val :=
  match fmtOf code with
  | .flt l => decode l b
  | .mxf l => decode l b
  | .int w => Val.ofInt (toInt w b)
  | .mxint8 => (match Val.ofInt (toInt 8 b) with | .fin s m _ => .fin s m (-6) | v => v)
  | .reserved => .nan

/-- The value of an E8M0 scale, or none for NaN (R27). -/
def scaleExp (x : Nat) : Option Int := if x == 255 then none else some ((x : Int) - 127)

/-- The decoded value of an MX element under its block's scale (R26, R27). -/
def mxValue (code scale b : Nat) : Val :=
  match scaleExp scale with
  | none => .nan
  | some k => match valueOf code b with
    | .fin s m e => .fin s m (e + k)
    | v => v

-- Sums and products of exact values.

/-- Exact sum of signed values m · 2^e, as mantissa and exponent. -/
def sumExact (l : List (Int × Int)) : Int × Int :=
  match l with
  | [] => (0, 0)
  | (_, e0) :: _ =>
    let low := l.foldl (fun a x => min a x.2) e0
    (l.foldl (fun a x => a + x.1 * (p2 (x.2 - low) : Int)) 0, low)

/-- Rounds m · 2^e to FP32 without saturation; an exact zero takes the given sign. -/
def round32 (mode : Mode) (m : Int) (e : Int) (zeroNeg : Bool) : Nat × Flags :=
  if m == 0 then (if zeroNeg then 2 ^ 31 else 0, {}) else toFloat fp32 mode false (m < 0) m.natAbs 1 e

def nan32 : Nat := 0x7FC00000
def inf32 (neg : Bool) : Nat := if neg then 0xFF800000 else 0x7F800000

/-- FP32 addition (R43). -/
def add (mode : Mode) (a b : Nat) : Nat × Flags :=
  match decode fp32 a, decode fp32 b with
  | .nan, _ => (nan32, {})
  | _, .nan => (nan32, {})
  | .inf s, .inf t => if s == t then (inf32 s, {}) else (nan32, { nv := true })
  | .inf s, _ => (inf32 s, {})
  | _, .inf t => (inf32 t, {})
  | x, y =>
    let (m, e) := sumExact [(x.sm, x.ex), (y.sm, y.ex)]
    let z := if x.isZero && y.isZero && x.neg? == y.neg? then x.neg? else mode == .rdn
    round32 mode m e z

def negate (a : Nat) : Nat := if (decode fp32 a).isNan then nan32 else (a + 2 ^ 31) % 2 ^ 32

/-- FP32 subtraction. -/
def sub (mode : Mode) (a b : Nat) : Nat × Flags := add mode a (negate b)

/-- The exact product, special cases as IEEE 754-2019; true: an invalid product. -/
def mulVal (x y : Val) : Val × Bool :=
  match x, y with
  | .nan, _ => (.nan, false)
  | _, .nan => (.nan, false)
  | .inf s, y => if y.isZero then (.nan, true) else (.inf (s != y.neg?), false)
  | x, .inf t => if x.isZero then (.nan, true) else (.inf (x.neg? != t), false)
  | .fin s m e, .fin t n f => (.fin (s != t) (m * n) (e + f), false)

/-- FP32 multiplication (R43). -/
def mul (mode : Mode) (a b : Nat) : Nat × Flags :=
  match mulVal (decode fp32 a) (decode fp32 b) with
  | (.nan, iv) => (nan32, { nv := iv })
  | (.inf s, _) => (inf32 s, {})
  | (.fin s m e, _) => if m == 0 then (if s then 2 ^ 31 else 0, {}) else toFloat fp32 mode false s m 1 e

/-- FP32 fused multiply-add, rounded once (R43). -/
def fma (mode : Mode) (a b c : Nat) : Nat × Flags :=
  match mulVal (decode fp32 a) (decode fp32 b), decode fp32 c with
  | (.nan, iv), _ => (nan32, { nv := iv })
  | _, .nan => (nan32, {})
  | (.inf s, _), .inf t => if s == t then (inf32 s, {}) else (nan32, { nv := true })
  | (.inf s, _), _ => (inf32 s, {})
  | _, .inf t => (inf32 t, {})
  | (x, _), y =>
    let (m, e) := sumExact [(x.sm, x.ex), (y.sm, y.ex)]
    let z := if x.isZero && y.isZero && x.neg? == y.neg? then x.neg? else mode == .rdn
    round32 mode m e z

/-- FP32 division (R43, R46: division by zero sets no flag). -/
def div (mode : Mode) (a b : Nat) : Nat × Flags :=
  match decode fp32 a, decode fp32 b with
  | .nan, _ => (nan32, {})
  | _, .nan => (nan32, {})
  | .inf _, .inf _ => (nan32, { nv := true })
  | .inf s, y => (inf32 (s != y.neg?), {})
  | x, .inf t => (if x.neg? != t then 2 ^ 31 else 0, {})
  | .fin s m e, .fin t n f =>
    if n == 0 then (if m == 0 then (nan32, { nv := true }) else (inf32 (s != t), {}))
    else if m == 0 then (if s != t then 2 ^ 31 else 0, {})
    else toFloat fp32 mode false (s != t) m n (e - f)

/-- floor of the square root, by bits from the top. -/
def isqrtGo (n : Nat) : Nat → Nat → Nat
  | 0, r => r
  | k + 1, r =>
    let c := r + 2 ^ k
    isqrtGo n k (if c * c ≤ n then c else r)

def isqrt (n : Nat) : Nat := isqrtGo n (n.log2 / 2 + 1) 0

/-- Root of m · 2^e to a mantissa of at least 64 bits, with a last bit that records inexactness: mantissa, exponent. -/
def rootSticky (m : Nat) (e : Int) : Nat × Int :=
  let sh : Int := 160 + (if e % 2 == 0 then 0 else 1)
  let n := m * p2 sh
  let r := isqrt n
  (2 * r + (if r * r == n then 0 else 1), (e - sh) / 2 - 1)

/-- FP32 square root (R43). -/
def sqrt (mode : Mode) (a : Nat) : Nat × Flags :=
  match decode fp32 a with
  | .nan => (nan32, {})
  | .inf s => if s then (nan32, { nv := true }) else (inf32 false, {})
  | .fin s m e =>
    if m == 0 then (a, {})
    else if s then (nan32, { nv := true })
    else let (r, q) := rootSticky m e; toFloat fp32 mode false false r 1 q

/-- A key that orders FP32 numbers other than NaN, −0 below +0 (R43, R54). -/
def orderKey (a : Nat) : Int := if a ≥ 2 ^ 31 then -((a : Int) - 2 ^ 31) - 1 else a

/-- FP32 minimum and maximum (R43). -/
def fmin (a b : Nat) : Nat :=
  if (decode fp32 a).isNan then (if (decode fp32 b).isNan then nan32 else b)
  else if (decode fp32 b).isNan then a else if orderKey a ≤ orderKey b then a else b

def fmax (a b : Nat) : Nat :=
  if (decode fp32 a).isNan then (if (decode fp32 b).isNan then nan32 else b)
  else if (decode fp32 b).isNan then a else if orderKey a ≥ orderKey b then a else b

/-- IEEE comparisons: a NaN compares unequal and unordered; −0 equals +0. -/
def cmpKey (a : Nat) : Int := if a ≥ 2 ^ 31 then -((a : Int) - 2 ^ 31) else a

def feq (a b : Nat) : Bool := !(decode fp32 a).isNan && !(decode fp32 b).isNan && cmpKey a == cmpKey b
def flt (a b : Nat) : Bool := !(decode fp32 a).isNan && !(decode fp32 b).isNan && decide (cmpKey a < cmpKey b)
def fle (a b : Nat) : Bool := !(decode fp32 a).isNan && !(decode fp32 b).isNan && decide (cmpKey a ≤ cmpKey b)

-- MX blocks (R26 to R31).

/-- emax and maxelem of an MX element format (R30): maxelem as m · 2^e. -/
def mxParams (code : Nat) : Int × Nat × Int :=
  match code with
  | 9 => (8, 14, 5)
  | 10 => (15, 7, 13)
  | 11 => (4, 7, 2)
  | 12 => (2, 15, -1)
  | 13 => (2, 3, 1)
  | _ => (0, 127, -6)

/-- The shared exponent of a block whose largest magnitude is m · 2^e, m > 0 (R30). -/
def sharedExp (code : Nat) (ceilSafe : Bool) (m : Nat) (e : Int) : Int :=
  let (emax, mm, me) := mxParams code
  if ceilSafe then
    let k := flog2 m mm
    let exact : Bool := m * p2 (-k) == mm * p2 k
    k + (e - me) + (if exact then 0 else 1)
  else flog2 m 1 + e - emax

/-- One element of an MX block under shared exponent E (R31 item 4). -/
def mxElem (code : Nat) (E : Int) (neg : Bool) (m : Nat) (e : Int) : Nat × Flags :=
  match fmtOf code with
  | .mxf l =>
    let (r, q) := roundAt .rne neg m 1 (e - E) l.mbits (1 - (l.bias : Int) - l.mbits)
    if magGt r q l.maxM l.maxE then (largest l neg, { sat := true })
    else (pack l neg r q, { uf := m != 0 && r == 0 })
  | _ =>
    let k := e - E + 6
    let r := roundQ .rne neg (m * p2 k) (p2 (-k))
    let lim := if neg then 128 else 127
    let i : Int := if neg then -((min r lim : Nat) : Int) else (min r lim : Nat)
    (ofInt 8 i, { sat := r > lim, uf := m != 0 && r == 0 })

/-- Encodes 32 FP32 values as one MX block: scale, elements, flags (R31). -/
def mxEncode (code : Nat) (ceilSafe : Bool) (vals : List Nat) : Nat × List Nat × Flags :=
  let vs := vals.map (decode fp32)
  if vs.any (fun v => v.isNan || v.isInf) then (255, vs.map (fun _ => 0), { nv := true })
  else
    let big := vs.foldl (fun (a : Nat × Int) v => match v with
      | .fin _ m e => if magGt m e a.1 a.2 then (m, e) else a
      | _ => a) (0, 0)
    if big.1 == 0 then
      (127, vs.map (fun v => match fmtOf code with | .mxf l => pack l v.neg? 0 0 | _ => 0), {})
    else
      let E0 := sharedExp code ceilSafe big.1 big.2
      let E := max (-127) (min 127 E0)
      let els := vs.map (fun v => match v with | .fin s m e => mxElem code E s m e | _ => (0, {}))
      ((E + 127).toNat, els.map (·.1), (Flags.all (els.map (·.2))).or { scl := E0 != E })

-- Dot products (R38 to R41).

/-- One chunk of a float-family dot product: the exact sum of the products, rounded once (R39, R40). -/
def chunkF (ps : List (Val × Val)) : Nat × Flags :=
  let prods := ps.map (fun (x, y) => mulVal x y)
  let nanIn := ps.any (fun (x, y) => x.isNan || y.isNan)
  let bad := prods.any (·.2)
  let pinf := prods.any (fun p => p.1 == .inf false)
  let ninf := prods.any (fun p => p.1 == .inf true)
  if nanIn || bad || (pinf && ninf) then (nan32, { nv := true })
  else if pinf then (inf32 false, {})
  else if ninf then (inf32 true, {})
  else
    let (m, e) := sumExact (prods.map (fun p => (p.1.sm, p.1.ex)))
    round32 .rne m e false

/-- The float-family dot product over chunks (R39). -/
def dotF (acc : Nat) (chunks : List (List (Val × Val))) : Nat × Flags :=
  chunks.foldl (fun (a : Nat × Flags) c =>
    let (p, f) := chunkF c
    let (r, g) := add .rne a.1 p
    (r, (a.2.or f).or g)) (acc, {})

/-- The integer-family dot product over chunks: modulo 2^32, IOV on a sum outside the range (R41). -/
def dotI (acc : Nat) (chunks : List (List (Int × Int))) : Nat × Flags :=
  chunks.foldl (fun (a : Nat × Flags) c =>
    let s := toInt 32 a.1 + c.foldl (fun t x => t + x.1 * x.2) 0
    (ofInt 32 s, a.2.or { iov := decide (s < -(2 ^ 31)) || decide (s > 2 ^ 31 - 1) })) (acc, {})

/-- The format class of a code: 16-bit formats have chunk length 16, all others 32 (R38). -/
def chunkLen1 (code : Nat) : Nat := if code == 1 || code == 2 then 16 else 32

/-- Chunk length of a pair: that of its faster class (R38). -/
def chunkLen (a b : Nat) : Nat := max (chunkLen1 a) (chunkLen1 b)

/-- Splits a list into pieces of length n. -/
def chunksOf {α : Type} (n : Nat) : Nat → List α → List (List α)
  | 0, _ => []
  | _, [] => []
  | k + 1, l => l.take n :: chunksOf n k (l.drop n)

def pieces {α : Type} (n : Nat) (l : List α) : List (List α) := chunksOf n l.length l

-- Elementary functions (R44): fixed-point numbers scaled by 2^P, far more precise than FP32 can distinguish, then one
-- rounding. An exact tie cannot occur outside the arguments that are taken apart first.

def prec : Nat := 640
def one : Int := 2 ^ prec
def fxMul (a b : Int) : Int := a * b / one
def fxDiv (a b : Int) : Int := a * one / b

/-- m · 2^e as a fixed-point number. -/
def fx (m : Int) (e : Int) : Int := let k := e + prec; if k ≥ 0 then m * (p2 k : Int) else m / (p2 (-k) : Int)

/-- atanh(1 / k) scaled, by its series. -/
def atanhInvGo (k2 : Int) : Nat → Int → Int → Int
  | 0, _, _ => 0
  | n + 1, t, i => t / i + atanhInvGo k2 n (t / k2) (i + 2)

/-- ln 2 = 2 atanh(1/3). -/
def ln2 : Int := 2 * atanhInvGo 9 220 (one / 3) 1

/-- atan(1 / k) scaled. -/
def atanInvGo (k2 : Int) : Nat → Int → Int → Int
  | 0, _, _ => 0
  | n + 1, t, i => t / i - atanInvGo k2 n (t / k2) (i + 2)

/-- π by Machin's formula. -/
def pi : Int := 4 * (4 * atanInvGo 25 150 (one / 5) 1 - atanInvGo 57121 50 (one / 239) 1)

/-- Σ r^n / n! from the n-th term on. -/
def expGo (r : Int) : Nat → Int → Int → Int
  | 0, _, _ => 0
  | n + 1, t, i => t + expGo r n (fxMul t r / i) (i + 1)

/-- e^x for a fixed-point x: fixed-point value of e^r and the power of two. -/
def expFx (x : Int) : Int × Int :=
  let n := (2 * x + ln2) / (2 * ln2)
  (expGo (x - n * ln2) 130 one 1, n)

/-- Σ z^(2i+1) / (2i+1). -/
def atanhGo (z2 : Int) : Nat → Int → Int → Int
  | 0, _, _ => 0
  | n + 1, t, i => t / i + atanhGo z2 n (fxMul t z2) (i + 2)

/-- ln of m · 2^e, m > 0. -/
def lnFx (m : Nat) (e : Int) : Int :=
  let k := m.log2
  let x := fx m (-(k : Int))
  2 * atanhGo (fxMul (fxDiv (x - one) (x + one)) (fxDiv (x - one) (x + one))) 220 (fxDiv (x - one) (x + one)) 1
    + (e + k) * ln2

/-- Rounds a fixed-point value times 2^k to FP32 under RNE. -/
def fxRound (x : Int) (k : Int) : Nat × Flags := toFloat fp32 .rne false (x < 0) x.natAbs 1 (k - prec)

/-- Rounds a magnitude too large or too small for the fixed-point range. -/
def overflow32 (neg : Bool) : Nat × Flags := (inf32 neg, { of := true })
def underflow32 (neg : Bool) : Nat × Flags := (if neg then 2 ^ 31 else 0, { uf := true })

/-- |m · 2^e| is at least the integer b. -/
def magGe (m : Nat) (e : Int) (b : Nat) : Bool := m * p2 e ≥ b * p2 (-e)

/-- e^(x · c) for the finite value ± m · 2^e, where c is 1 or ln 2. -/
def expVal (s : Bool) (m : Nat) (e : Int) (c : Int) : Nat × Flags :=
  if m == 0 then (0x3F800000, {})
  else if magGe m e 200 then (if s then underflow32 false else overflow32 false)
  else
    let x := fxMul (fx (if s then -(m : Int) else m) e) c
    let (y, n) := expFx x
    -- an argument below the precision leaves the function within half a unit of 1
    fxRound y n

/-- Σ (−1)^n x^(2n+1) / (n! (2n+1)). -/
def erfGo (x2 : Int) : Nat → Int → Int → Int
  | 0, _, _ => 0
  | n + 1, t, i => t / (2 * i + 1) + erfGo x2 n (-(fxMul t x2) / (i + 1)) (i + 1)

/-- √π. -/
def sqrtPi : Int := isqrt (pi.toNat * 2 ^ prec)

/-- Σ ± r^k / k! in steps of two, from the term t with factorial index i. -/
def sinGo (r2 : Int) : Nat → Int → Int → Int
  | 0, _, _ => 0
  | n + 1, t, i => t + sinGo r2 n (-(fxMul t r2) / ((i + 1) * (i + 2))) (i + 2)

/-- sin(x) (shift 0) or cos(x) (shift 1) of a finite value, reduced modulo π/2 exactly enough. -/
def sinVal (s : Bool) (m : Nat) (e : Int) (shift : Int) : Nat × Flags :=
  let x := fx (if s then -(m : Int) else m) e
  let n := (2 * x + pi / 2) / pi
  let r := x - n * pi / 2
  let q := (n + shift) % 4
  let r2 := fxMul r r
  let v := if q % 2 == 0 then sinGo r2 90 r 1 else sinGo r2 90 one 0
  fxRound (if q ≥ 2 then -v else v) 0

/-- The elementary functions by FUNC of class 4 (R53, R95). -/
def elementary (func a : Nat) : Nat × Flags :=
  match decode fp32 a with
  | .nan => (nan32, {})
  | .inf s =>
    match func with
    | 0 | 1 => (if s then 0 else inf32 false, {})
    | 2 | 3 => if s then (nan32, { nv := true }) else (inf32 false, {})
    | 4 => (if s then 2 ^ 31 else 0, {})
    | 5 => if s then (nan32, { nv := true }) else (0, {})
    | 6 | 8 => (if s then 0xBF800000 else 0x3F800000, {})
    | 7 => (if s then 0 else 0x3F800000, {})
    | _ => (nan32, { nv := true })
  | .fin s m e =>
    match func with
    | 0 => expVal s m e one
    | 1 => expVal s m e ln2
    | 2 | 3 =>
      if m == 0 then (inf32 true, {}) else if s then (nan32, { nv := true })
      else
        let y := lnFx m e
        if a == 0x3F800000 then (0, {}) else if func == 2 then fxRound y 0 else fxRound (fxDiv y ln2) 0
    | 4 => if m == 0 then (inf32 s, {}) else toFloat fp32 .rne false s 1 m (-e)
    | 5 =>
      if m == 0 then (inf32 s, {}) else if s then (nan32, { nv := true })
      else
        -- 1 / √(m 2^e) = √(2^400 / m) · 2^(−200 − e/2), the sticky bit recording what is cut off
        let e' := if e % 2 == 0 then e else e - 1
        let m' := if e % 2 == 0 then m else 2 * m
        let n := 2 ^ 400 / m'
        let r := isqrt n
        toFloat fp32 .rne false false (2 * r + (if r * r * m' == 2 ^ 400 then 0 else 1)) 1 (-201 - e' / 2)
    | 6 =>
      if m == 0 then (a, {}) else if magGe m e 40 then (if s then 0xBF800000 else 0x3F800000, {})
      else
        let (y, n) := expFx (2 * fx m e)
        let t := fx y (n - prec)
        fxRound (let v := fxDiv (t - one) (t + one); if s then -v else v) 0
    | 7 =>
      if magGe m e 200 then (if s then underflow32 false else (0x3F800000, {}))
      else
        let (y, n) := expFx (fx (if s then -(m : Int) else m) e)
        let t := fx y (n - prec)
        fxRound (fxDiv t (one + t)) 0
    | 8 =>
      if m == 0 then (a, {}) else if magGe m e 5 then (if s then 0xBF800000 else 0x3F800000, {})
      else
        let x := fx m e
        let v := 2 * fxDiv (erfGo (fxMul x x) 300 x 0) sqrtPi
        fxRound (if s then -v else v) 0
    | 9 => if m == 0 then (a, {}) else sinVal s m e 0
    | 10 => if m == 0 then (0x3F800000, {}) else sinVal s m e 1
    | _ => (nan32, {})

end Arith
end Sys2Proof.Machine
end

