-- ==== Sys2Proof/Machine/Bits.lean ====
section
/-!
DEFINITION. Bit fields, byte strings (R3), sparse arrays and byte memories, each with the one operation that reads it
and the one that writes it.
-/
namespace Sys2Proof.Machine

-- Bit fields.

/-- The field of `len` bits from bit `lo` of a natural. -/
def bits (n lo len : Nat) : Nat := n / 2 ^ lo % 2 ^ len

/-- The field of `len` bits from bit `lo` of a bit vector. -/
def fld {w : Nat} (v : BitVec w) (lo len : Nat) : Nat := bits v.toNat lo len

/-- Bit `i` of a bit vector. -/
def bit {w : Nat} (v : BitVec w) (i : Nat) : Bool := v.getLsbD i

/-- 1 or 0. -/
def b2n (b : Bool) : Nat := if b then 1 else 0

/-- The word with bit `i` set. -/
def setBit {w : Nat} (v : BitVec w) (i : Nat) : BitVec w := v ||| BitVec.ofNat w (2 ^ i)

/-- The word with bit `i` set or cleared. -/
def putBit {w : Nat} (v : BitVec w) (i : Nat) (b : Bool) : BitVec w :=
  if b then setBit v i else v &&& ~~~(BitVec.ofNat w (2 ^ i))

/-- The word with the field of `len` bits from bit `lo` replaced. -/
def putFld {w : Nat} (v : BitVec w) (lo len x : Nat) : BitVec w :=
  (v &&& ~~~(BitVec.ofNat w ((2 ^ len - 1) * 2 ^ lo))) ||| BitVec.ofNat w (x % 2 ^ len * 2 ^ lo)

/-- A write to a W1C field: each bit written as 1 is cleared (R9). -/
def w1c {w : Nat} (v written : BitVec w) : BitVec w := v &&& ~~~written

/-- A word of the low 32 bits of a natural. -/
def word (n : Nat) : Word := BitVec.ofNat 32 n

/-- The low and the high half of a 64-bit quantity (R4). -/
def lo32 (n : Nat) : Word := BitVec.ofNat 32 n
def hi32 (n : Nat) : Word := BitVec.ofNat 32 (n / 2 ^ 32)

/-- A 32-bit counter that stops at its greatest value. -/
def sat32 (n : Nat) : Nat := min n 0xFFFFFFFF

def sat16 (n : Nat) : Nat := min n 0xFFFF

/-- A 64-bit two's complement or modular value. -/
def wrap64 (n : Nat) : Nat := n % 2 ^ 64

def roundUp (n m : Nat) : Nat := (n + m - 1) / m * m

-- Byte strings.

/-- The low `len` bytes of a natural, little-endian (R3). -/
def le : Nat → Nat → Bytes
  | 0, _ => []
  | k + 1, n => BitVec.ofNat 8 n :: le k (n / 256)

/-- The natural that a little-endian byte string holds (R3). -/
def leNat : Bytes → Nat
  | [] => 0
  | b :: t => b.toNat + 256 * leNat t

/-- Big-endian, for published protocols (R3). -/
def be (len n : Nat) : Bytes := (le len n).reverse
def beNat (b : Bytes) : Nat := leNat b.reverse

def slice (b : Bytes) (off len : Nat) : Bytes := (b.drop off).take len

def u8 (b : Bytes) (off : Nat) : Nat := (b.getD off 0).toNat
def u16 (b : Bytes) (off : Nat) : Nat := leNat (slice b off 2)
def u32 (b : Bytes) (off : Nat) : Nat := leNat (slice b off 4)
def u64 (b : Bytes) (off : Nat) : Nat := leNat (slice b off 8)

def zeros (n : Nat) : Bytes := List.replicate n 0

/-- Exactly `n` bytes: cut, or padded with zeros. -/
def fit (n : Nat) (b : Bytes) : Bytes := b.take n ++ zeros (n - b.length)

/-- Padded with zeros to a multiple of `m` bytes. -/
def padTo (m : Nat) (b : Bytes) : Bytes := b ++ zeros (roundUp b.length m - b.length)

/-- Every byte of the range is 0. -/
def allZero (b : Bytes) (off len : Nat) : Bool := (slice b off len).all (· == 0)

/-- A byte list of given numbers. -/
def bytes (l : List Nat) : Bytes := l.map (BitVec.ofNat 8)

-- Sparse arrays.

namespace Sp

variable {α : Type}

/-- The entry at an index, or the default. -/
def get (d : α) : Sparse α → Nat → α
  | [], _ => d
  | (j, v) :: t, k => if j = k then v else get d t k

/-- Removes the entry at an index. -/
def del : Sparse α → Nat → Sparse α
  | [], _ => []
  | (j, v) :: t, k => if j = k then del t k else (j, v) :: del t k

/-- Inserts or replaces the entry at an index, indices rising. -/
def put : Sparse α → Nat → α → Sparse α
  | [], k, v => [(k, v)]
  | (j, w) :: t, k, v => if k < j then (k, v) :: (j, w) :: t else if j = k then (k, v) :: t else (j, w) :: put t k v

/-- Writes the entry at an index; the default is not listed. -/
def set [DecidableEq α] (d : α) (l : Sparse α) (k : Nat) (v : α) : Sparse α := if v = d then del l k else put l k v

/-- Indices rise strictly. -/
def sorted : Sparse α → Bool
  | [] => true
  | [_] => true
  | (i, _) :: (j, v) :: t => decide (i < j) && sorted ((j, v) :: t)

/-- The canonical form: indices rise strictly and no entry is the default. -/
def wf [DecidableEq α] (d : α) (l : Sparse α) : Bool := sorted l && l.all (fun e => decide (e.2 ≠ d))

/-- Entries of the indices below `a`, and from `b` on, kept; the others replaced by the given entries. -/
def splice (l : Sparse α) (a b : Nat) (mid : Sparse α) : Sparse α :=
  l.filter (fun e => decide (e.1 < a)) ++ mid ++ l.filter (fun e => decide (b ≤ e.1))

/-- Consecutive values from an index, the default left out. -/
def block [DecidableEq α] (d : α) : Nat → List α → Sparse α
  | _, [] => []
  | a, v :: t => if v = d then block d (a + 1) t else (a, v) :: block d (a + 1) t

/-- Writes consecutive values from an index. -/
def write [DecidableEq α] (d : α) (l : Sparse α) (a : Nat) (vs : List α) : Sparse α :=
  splice l a (a + vs.length) (block d a vs)

/-- Reads consecutive values from an index. -/
def read (d : α) (l : Sparse α) (a n : Nat) : List α := (List.range n).map (fun i => get d l (a + i))

/-- Clears the indices of a range to the default. -/
def clear (l : Sparse α) (a n : Nat) : Sparse α := splice l a (a + n) []

/-- The first index below `n` whose entry satisfies a test. -/
def findIdx (d : α) (l : Sparse α) (n : Nat) (p : α → Bool) : Option Nat :=
  (List.range n).find? (fun i => p (get d l i))

end Sp

-- Byte memories: an unlisted address reads 0.

namespace Memory

/-- The canonical form of a memory: addresses strictly rising, no zero byte listed. -/
def wf (m : List Host.Cell) : Bool := Sp.wf 0 m

def byte (m : List Host.Cell) (a : Nat) : Byte := Sp.get 0 m a

def read (m : List Host.Cell) (a n : Nat) : Bytes := Sp.read 0 m a n

def write (m : List Host.Cell) (a : Nat) (b : Bytes) : List Host.Cell := Sp.write 0 m a b

def clear (m : List Host.Cell) (a n : Nat) : List Host.Cell := Sp.clear m a n

end Memory

-- Lists.

/-- The first `n` items from the end. -/
def lastN {α : Type} (n : Nat) (l : List α) : List α := l.drop (l.length - n)

/-- The list without the first item equal to `x`. -/
def dropOne {α : Type} [DecidableEq α] (x : α) : List α → List α
  | [] => []
  | y :: t => if x = y then t else y :: dropOne x t

/-- The list with `x` added once. -/
def addOnce {α : Type} [DecidableEq α] (x : α) (l : List α) : List α := if x ∈ l then l else l ++ [x]

/-- Numbers from `a` up to `b`, both included. -/
def range2 (a b : Nat) : List Nat := (List.range (b + 1 - a)).map (a + ·)

/-- A list in the order of a test, items that are equal under it in their old order. -/
def insertBy {α : Type} (le : α → α → Bool) (a : α) : List α → List α
  | [] => [a]
  | b :: t => if le a b then a :: b :: t else b :: insertBy le a t
def sortBy {α : Type} (le : α → α → Bool) (l : List α) : List α := l.foldr (insertBy le) []
def sortNat (l : List Nat) : List Nat := sortBy (fun a b => decide (a ≤ b)) l

/-- Items strictly rise. -/
def ascending : List Nat → Bool
  | [] => true
  | [_] => true
  | a :: b :: t => decide (a < b) && ascending (b :: t)

/-- The list holds no item twice. -/
def distinct : List Nat → Bool
  | [] => true
  | a :: t => !(t.contains a) && distinct t

end Sys2Proof.Machine
end

