-- ==== Sys2Proof/Machine/Crypto.lean ====
section
/-!
DEFINITION. The published algorithms that the spec names: SHA-512, HKDF with it, Ed25519, X25519, AES-256-GCM (R77,
R309, R413, R420, R426), AES-256-XTS (R273), CRC-32C (R282, R340) and CRC-8 (R486).
-/
namespace Sys2Proof.Machine.Crypto

/-- Round constants of SHA-512: the first 64 fractional bits of the cube roots of the first 80 primes. -/
def shaK : List Nat :=
  [0x428A2F98D728AE22, 0x7137449123EF65CD, 0xB5C0FBCFEC4D3B2F, 0xE9B5DBA58189DBBC,
   0x3956C25BF348B538, 0x59F111F1B605D019, 0x923F82A4AF194F9B, 0xAB1C5ED5DA6D8118,
   0xD807AA98A3030242, 0x12835B0145706FBE, 0x243185BE4EE4B28C, 0x550C7DC3D5FFB4E2,
   0x72BE5D74F27B896F, 0x80DEB1FE3B1696B1, 0x9BDC06A725C71235, 0xC19BF174CF692694,
   0xE49B69C19EF14AD2, 0xEFBE4786384F25E3, 0x0FC19DC68B8CD5B5, 0x240CA1CC77AC9C65] ++
  [0x2DE92C6F592B0275, 0x4A7484AA6EA6E483, 0x5CB0A9DCBD41FBD4, 0x76F988DA831153B5,
   0x983E5152EE66DFAB, 0xA831C66D2DB43210, 0xB00327C898FB213F, 0xBF597FC7BEEF0EE4,
   0xC6E00BF33DA88FC2, 0xD5A79147930AA725, 0x06CA6351E003826F, 0x142929670A0E6E70,
   0x27B70A8546D22FFC, 0x2E1B21385C26C926, 0x4D2C6DFC5AC42AED, 0x53380D139D95B3DF,
   0x650A73548BAF63DE, 0x766A0ABB3C77B2A8, 0x81C2C92E47EDAEE6, 0x92722C851482353B] ++
  [0xA2BFE8A14CF10364, 0xA81A664BBC423001, 0xC24B8B70D0F89791, 0xC76C51A30654BE30,
   0xD192E819D6EF5218, 0xD69906245565A910, 0xF40E35855771202A, 0x106AA07032BBD1B8,
   0x19A4C116B8D2D0C8, 0x1E376C085141AB53, 0x2748774CDF8EEB99, 0x34B0BCB5E19B48A8,
   0x391C0CB3C5C95A63, 0x4ED8AA4AE3418ACB, 0x5B9CCA4F7763E373, 0x682E6FF3D6B2B8A3,
   0x748F82EE5DEFB2FC, 0x78A5636F43172F60, 0x84C87814A1F0AB72, 0x8CC702081A6439EC] ++
  [0x90BEFFFA23631E28, 0xA4506CEBDE82BDE9, 0xBEF9A3F7B2C67915, 0xC67178F2E372532B,
   0xCA273ECEEA26619C, 0xD186B8C721C0C207, 0xEADA7DD6CDE0EB1E, 0xF57D4F7FEE6ED178,
   0x06F067AA72176FBA, 0x0A637DC5A2C898A6, 0x113F9804BEF90DAE, 0x1B710B35131C471B,
   0x28DB77F523047D84, 0x32CAAB7B40C72493, 0x3C9EBE0A15C9BEBC, 0x431D67C49C100D4C,
   0x4CC5D4BECB3E42B6, 0x597F299CFC657E2A, 0x5FCB6FAB3AD6FAEC, 0x6C44198C4A475817]

/-- Initial hash value of SHA-512: the same of the square roots of the first 8 primes. -/
def shaH : List Nat :=
  [0x6A09E667F3BCC908, 0xBB67AE8584CAA73B, 0x3C6EF372FE94F82B, 0xA54FF53A5F1D36F1,
   0x510E527FADE682D1, 0x9B05688C2B3E6C1F, 0x1F83D9ABFB41BD6B, 0x5BE0CD19137E2179]

def m64 : Nat := 2 ^ 64

/-- Rotation of a 64-bit word to the right. -/
def rotr (x k : Nat) : Nat := x / 2 ^ k + x % 2 ^ k * 2 ^ (64 - k)

/-- The message schedule of one block: 16 words, extended to 80. -/
def shaSchedule (w : List Nat) : List Nat :=
  ((List.range 64).foldl (fun (a : List Nat) _ =>
    -- `a` holds the words so far, newest first
    let w15 := a.getD 14 0
    let w2 := a.getD 1 0
    let s0 := rotr w15 1 ^^^ rotr w15 8 ^^^ (w15 / 2 ^ 7)
    let s1 := rotr w2 19 ^^^ rotr w2 61 ^^^ (w2 / 2 ^ 6)
    (a.getD 15 0 + s0 + a.getD 6 0 + s1) % m64 :: a) w.reverse).reverse

/-- One round on the eight working words. -/
def shaRound (v : List Nat) (kw : Nat) : List Nat :=
  match v with
  | [a, b, c, d, e, f, g, h] =>
    let s1 := rotr e 14 ^^^ rotr e 18 ^^^ rotr e 41
    let ch := (e &&& f) ^^^ ((m64 - 1 - e) &&& g)
    let t1 := h + s1 + ch + kw
    let s0 := rotr a 28 ^^^ rotr a 34 ^^^ rotr a 39
    let mj := (a &&& b) ^^^ (a &&& c) ^^^ (b &&& c)
    [(t1 + s0 + mj) % m64, a, b, c, (d + t1) % m64, e, f, g]
  | _ => v

def shaBlock (h : List Nat) (block : Bytes) : List Nat :=
  let w := shaSchedule ((List.range 16).map (fun i => beNat (slice block (8 * i) 8)))
  let v := (List.zipWith (fun k x => k + x) shaK w).foldl shaRound h
  List.zipWith (fun x y => (x + y) % m64) h v

/-- Cuts a byte string into blocks of n bytes. -/
def blocks (n : Nat) : Nat → Bytes → List Bytes
  | 0, _ => []
  | _, [] => []
  | k + 1, b => b.take n :: blocks n k (b.drop n)

/-- SHA-512. -/
def sha512 (msg : Bytes) : Bytes :=
  let padded := msg ++ [0x80] ++ zeros ((239 - msg.length % 128) % 128) ++ be 16 (8 * msg.length)
  ((blocks 128 (padded.length / 128) padded).foldl shaBlock shaH).flatMap (be 8)

/-- HMAC with SHA-512. -/
def hmac (key msg : Bytes) : Bytes :=
  let k := fit 128 (if key.length > 128 then sha512 key else key)
  sha512 (k.map (· ^^^ 0x5C) ++ sha512 (k.map (· ^^^ 0x36) ++ msg))

/-- HKDF-Extract and HKDF-Expand with SHA-512 (R420, R426), for at most 64 bytes of output. -/
def hkdfExtract (salt ikm : Bytes) : Bytes := hmac salt ikm
def hkdfExpand (prk info : Bytes) (len : Nat) : Bytes := (hmac prk (info ++ [1])).take len

/-- x^n modulo m, by squaring over the bits of n from the lowest. -/
def powModGo (m : Nat) : Nat → Nat → Nat → Nat → Nat
  | 0, _, _, r => r
  | f + 1, x, n, r => powModGo m f (x * x % m) (n / 2) (if n % 2 == 1 then r * x % m else r)

def powMod (x n m : Nat) : Nat := powModGo m (n.log2 + 1) (x % m) n (1 % m)

/-- The field of Curve25519. -/
def p25519 : Nat := 2 ^ 255 - 19
def fAdd (a b : Nat) : Nat := (a + b) % p25519
def fSub (a b : Nat) : Nat := (a + p25519 - b % p25519) % p25519
def fMul (a b : Nat) : Nat := a * b % p25519
def fInv (a : Nat) : Nat := powMod a (p25519 - 2) p25519

/-- One step of the Montgomery ladder on (x2, z2, x3, z3). -/
def ladderStep (u : Nat) (s : Nat × Nat × Nat × Nat) (b : Bool) : Nat × Nat × Nat × Nat :=
  let (x2, z2, x3, z3) := if b then (s.2.2.1, s.2.2.2, s.1, s.2.1) else s
  let a := fAdd x2 z2
  let aa := fMul a a
  let b' := fSub x2 z2
  let bb := fMul b' b'
  let e := fSub aa bb
  let da := fMul (fSub x3 z3) a
  let cb := fMul (fAdd x3 z3) b'
  let x3' := fMul (fAdd da cb) (fAdd da cb)
  let z3' := fMul u (fMul (fSub da cb) (fSub da cb))
  let x2' := fMul aa bb
  let z2' := fMul e (fAdd aa (fMul 121665 e))
  if b then (x3', z3', x2', z2') else (x2', z2', x3', z3')

/-- X25519 of a 32-byte scalar and a 32-byte coordinate. -/
def x25519 (k u : Bytes) : Bytes :=
  let n := leNat (fit 32 k) % 2 ^ 254 / 8 * 8 + 2 ^ 254
  let x := leNat (fit 32 u) % 2 ^ 255 % p25519
  let (x2, z2, _, _) := (List.range 255).foldl (fun s i => ladderStep x s (n.testBit (254 - i))) (1, 0, x, 1)
  le 32 (fMul x2 (fInv z2))

/-- The public key of a private key. -/
def x25519Public (k : Bytes) : Bytes := x25519 k (le 32 9)

/-- A point of Ed25519 in extended coordinates. -/
abbrev Point := Nat × Nat × Nat × Nat

def edD : Nat := fMul (fSub 0 121665) (fInv 121666)
def edL : Nat := 2 ^ 252 + 27742317777372353535851937790883648493

def edAdd (a b : Point) : Point :=
  let (x1, y1, z1, t1) := a
  let (x2, y2, z2, t2) := b
  let p := fMul (fSub y1 x1) (fSub y2 x2)
  let q := fMul (fAdd y1 x1) (fAdd y2 x2)
  let c := fMul (fMul 2 t1) (fMul t2 edD)
  let d := fMul (fMul 2 z1) z2
  let e := fSub q p
  let f := fSub d c
  let g := fAdd d c
  let h := fAdd q p
  (fMul e f, fMul g h, fMul f g, fMul e h)

def edZero : Point := (0, 1, 1, 0)

def edMulGo : Nat → Nat → Point → Point → Point
  | 0, _, _, r => r
  | f + 1, n, p, r => edMulGo f (n / 2) (edAdd p p) (if n % 2 == 1 then edAdd r p else r)

def edMul (n : Nat) (p : Point) : Point := edMulGo (n.log2 + 1) n p edZero

/-- x from y and the sign bit. -/
def edRecover (y sign : Nat) : Option Nat :=
  if y ≥ p25519 then none else
    let x2 := fMul (fSub (fMul y y) 1) (fInv (fAdd (fMul edD (fMul y y)) 1))
    if x2 == 0 then (if sign == 1 then none else some 0) else
      let r := powMod x2 ((p25519 + 3) / 8) p25519
      let r := if fMul r r == x2 then r else fMul r (powMod 2 ((p25519 - 1) / 4) p25519)
      if fMul r r != x2 then none else some (if r % 2 == sign then r else p25519 - r)

def edPoint (b : Bytes) : Option Point :=
  let n := leNat (fit 32 b)
  let y := n % 2 ^ 255
  (edRecover y (n / 2 ^ 255)).map (fun x => (x, y, 1, fMul x y))

def edBase : Point :=
  let y := fMul 4 (fInv 5)
  match edRecover y 0 with
  | some x => (x, y, 1, fMul x y)
  | none => edZero

def edCompress (p : Point) : Bytes :=
  let zi := fInv p.2.2.1
  le 32 (fMul p.2.1 zi + fMul p.1 zi % 2 * 2 ^ 255)

def edEq (a b : Point) : Bool :=
  fMul a.1 b.2.2.1 == fMul b.1 a.2.2.1 && fMul a.2.1 b.2.2.1 == fMul b.2.1 a.2.2.1

/-- Ed25519 with SHA-512: the public key, and a signature, of a 32-byte seed. -/
def edSecret (seed : Bytes) : Nat × Bytes :=
  let h := sha512 (fit 32 seed)
  (leNat (h.take 32) % 2 ^ 254 / 8 * 8 + 2 ^ 254, h.drop 32)

def edPublic (seed : Bytes) : Bytes := edCompress (edMul (edSecret seed).1 edBase)

def edSign (seed msg : Bytes) : Bytes :=
  let (a, pre) := edSecret seed
  let pub := edPublic seed
  let r := leNat (sha512 (pre ++ msg)) % edL
  let rb := edCompress (edMul r edBase)
  let k := leNat (sha512 (rb ++ pub ++ msg)) % edL
  rb ++ le 32 ((r + k * a) % edL)

/-- Verification: [8][S]B = [8]R + [8][k]A. -/
def edVerify (pub msg sig : Bytes) : Bool :=
  sig.length == 64 && pub.length == 32 &&
  match edPoint pub, edPoint (sig.take 32) with
  | some a, some r =>
    let s := leNat (sig.drop 32)
    let k := leNat (sha512 (sig.take 32 ++ pub ++ msg)) % edL
    s < edL && edEq (edMul 8 (edMul s edBase)) (edMul 8 (edAdd r (edMul k a)))
  | _, _ => false

-- AES-256 and GCM.

/-- Multiplication by x in GF(2^8). -/
def xtime (a : Nat) : Nat := if a ≥ 128 then (2 * a) % 256 ^^^ 0x1B else 2 * a

def gmul (a b : Nat) : Nat :=
  ((List.range 8).foldl (fun (s : Nat × Nat) i => (xtime s.1, if b.testBit i then s.2 ^^^ s.1 else s.2)) (a, 0)).2

def ginv (a : Nat) : Nat :=
  -- a^254
  let sq (x : Nat) := gmul x x
  let a2 := sq a
  let a3 := gmul a2 a
  let a12 := sq (sq a3)
  let a15 := gmul a12 a3
  let a240 := sq (sq (sq (sq a15)))
  gmul (gmul a240 a12) a2

def sboxOf (a : Nat) : Nat :=
  let x := ginv a
  let r (k : Nat) := (x * 2 ^ k) % 256 + x / 2 ^ (8 - k)
  x ^^^ r 1 ^^^ r 2 ^^^ r 3 ^^^ r 4 ^^^ 0x63

def sboxTable : List Nat := (List.range 256).map sboxOf
def sbox (a : Nat) : Nat := sboxTable.getD a 0

/-- The 60 round-key words of AES-256, each as four bytes. -/
def aesExpand (key : Bytes) : List (List Nat) :=
  let w0 := (List.range 8).map (fun i => (slice key (4 * i) 4).map (·.toNat))
  ((List.range 52).foldl (fun (s : List (List Nat) × Nat) j =>
    let i := j + 8
    let last := s.1.getD 0 []
    let t := if i % 8 == 0 then
        (match last with
         | [a, b, c, d] => [sbox b ^^^ s.2, sbox c, sbox d, sbox a]
         | l => l)
      else if i % 8 == 4 then last.map sbox else last
    (List.zipWith (· ^^^ ·) (s.1.getD 7 []) t :: s.1, if i % 8 == 0 then xtime s.2 else s.2)) (w0.reverse, 1)).1.reverse

def addKey (st : List Nat) (w : List (List Nat)) (r : Nat) : List Nat :=
  List.zipWith (· ^^^ ·) st (((w.drop (4 * r)).take 4).flatten)

def shiftRows (st : List Nat) : List Nat :=
  (List.range 16).map (fun i => st.getD ((i + 4 * (i % 4)) % 16) 0)

def mixColumns (st : List Nat) : List Nat :=
  (List.range 16).map (fun i =>
    let c := i / 4 * 4
    let g (k : Nat) := st.getD (c + (i + k) % 4) 0
    xtime (g 0) ^^^ (xtime (g 1) ^^^ g 1) ^^^ g 2 ^^^ g 3)

/-- AES-256 of one block under expanded keys. -/
def aesBlock (w : List (List Nat)) (block : Bytes) : Bytes :=
  let s0 := addKey ((fit 16 block).map (·.toNat)) w 0
  let s1 := (List.range 13).foldl (fun s r => addKey (mixColumns (shiftRows (s.map sbox))) w (r + 1)) s0
  bytes (addKey (shiftRows (s1.map sbox)) w 14)

/-- Multiplication in the field of GHASH; bit 127 of a natural is the first bit of a block. -/
def ghashMul (x y : Nat) : Nat :=
  ((List.range 128).foldl (fun (s : Nat × Nat) i =>
    (if s.1 % 2 == 1 then s.1 / 2 ^^^ 0xE1000000000000000000000000000000 else s.1 / 2,
     if x.testBit (127 - i) then s.2 ^^^ s.1 else s.2)) (y, 0)).2

def ghash (h : Nat) (data : Bytes) : Nat :=
  (blocks 16 ((data.length + 15) / 16) data).foldl (fun y b => ghashMul (y ^^^ beNat b) h) 0

def ctrMode (w : List (List Nat)) (nonce data : Bytes) : Bytes :=
  ((blocks 16 ((data.length + 15) / 16) data).zipIdx.map (fun (b, i) =>
    List.zipWith (· ^^^ ·) b (aesBlock w (nonce ++ be 4 (i + 2))))).flatten

/-- AES-256-GCM with a 96-bit nonce: the tag of ciphertext and associated data. -/
def gcmTag (w : List (List Nat)) (nonce aad ct : Bytes) : Bytes :=
  let h := beNat (aesBlock w (zeros 16))
  let s := ghash h (padTo 16 aad ++ padTo 16 ct ++ be 8 (8 * aad.length) ++ be 8 (8 * ct.length))
  be 16 (s ^^^ beNat (aesBlock w (nonce ++ be 4 1)))

/-- Ciphertext and tag. -/
def gcmSeal (key nonce aad pt : Bytes) : Bytes × Bytes :=
  let w := aesExpand key
  let ct := ctrMode w nonce pt
  (ct, gcmTag w nonce aad ct)

/-- Plaintext, or none when the tag fails. -/
def gcmOpen (key nonce aad ct tag : Bytes) : Option Bytes :=
  let w := aesExpand key
  if gcmTag w nonce aad ct == tag then some (ctrMode w nonce ct) else none

-- XTS (IEEE 1619).

/-- The product of a tweak with the primitive element. -/
def xtsNext (t : Nat) : Nat := if t < 2 ^ 127 then 2 * t else (2 * t - 2 ^ 128) ^^^ 0x87

/-- Ciphertext of the blocks of one data unit from their tweak on. -/
def xtsBlocks (w : List (List Nat)) : Nat → List Bytes → Bytes
  | _, [] => []
  | t, b :: bs =>
    let m := le 16 t
    List.zipWith (· ^^^ ·) m (aesBlock w (List.zipWith (· ^^^ ·) m b)) ++ xtsBlocks w (xtsNext t) bs

/-- AES-256-XTS of a data unit of whole blocks under a 512-bit key pair: the number of the data unit is the tweak (R273). -/
def xtsSeal (key : Bytes) (unit : Nat) (pt : Bytes) : Bytes :=
  xtsBlocks (aesExpand (key.take 32)) (leNat (aesBlock (aesExpand (key.drop 32)) (le 16 unit))) (blocks 16 (pt.length / 16) pt)

-- Cyclic redundancy checks.

/-- CRC-32C (Castagnoli), reflected, initial and final complement. -/
def crc32c (data : Bytes) : Nat :=
  data.foldl (fun c b => (List.range 8).foldl (fun c _ => if c % 2 == 1 then c / 2 ^^^ 0x82F63B78 else c / 2)
    (c ^^^ b.toNat)) 0xFFFFFFFF ^^^ 0xFFFFFFFF

/-- CRC-8, polynomial 0x07, initial value 0 (R486). -/
def crc8 (data : Bytes) : Nat :=
  data.foldl (fun c b => (List.range 8).foldl (fun c _ => if c ≥ 128 then (2 * c) % 256 ^^^ 0x07 else 2 * c)
    (c ^^^ b.toNat)) 0

end Sys2Proof.Machine.Crypto
end

