-- ==== Sys2Proof/Machine/Ops.lean ====
section
/-!
DEFINITION. The named operations that commands share: access to the parts of the state, free values, the geometry of
cells and pages, what leaves the module, frames and egress, fault records, interrupts, and the stop of a partition.
-/
namespace Sys2Proof.Machine

/-- The outcome of a command that goes on. -/
abbrev Out := Host.Outcome State Fault Refusal

-- Parts of the state: one read and one write each.

def State.cell (s : State) (n : Nat) : CellState := Sp.get {} s.cells n
def State.setCell (s : State) (n : Nat) (x : CellState) : State := { s with cells := Sp.set {} s.cells n x }
def State.onCell (s : State) (n : Nat) (f : CellState → CellState) : State := s.setCell n (f (s.cell n))

def State.pan (s : State) (n : Nat) : PanState := Sp.get {} s.pans n
def State.setPan (s : State) (n : Nat) (x : PanState) : State := { s with pans := Sp.set {} s.pans n x }
def State.onPan (s : State) (n : Nat) (f : PanState → PanState) : State := s.setPan n (f (s.pan n))

def State.win (s : State) (w : Nat) : PtWindow := Sp.get {} s.ptw w
def State.setWin (s : State) (w : Nat) (x : PtWindow) : State := { s with ptw := Sp.set {} s.ptw w x }
def State.onWin (s : State) (w : Nat) (f : PtWindow → PtWindow) : State := s.setWin w (f (s.win w))

def State.part (s : State) (p : Nat) : Part := Sp.get {} s.parts p
def State.setPart (s : State) (p : Nat) (x : Part) : State := { s with parts := Sp.set {} s.parts p x }
def State.onPart (s : State) (p : Nat) (f : Part → Part) : State := s.setPart p (f (s.part p))

def State.fn (s : State) (f : Nat) : Fn := Sp.get {} s.fns f
def State.setFn (s : State) (f : Nat) (x : Fn) : State := { s with fns := Sp.set {} s.fns f x }
def State.onFn (s : State) (f : Nat) (g : Fn → Fn) : State := s.setFn f (g (s.fn f))

/-- BAR0 state of function f on port h (R292). -/
def State.hp (s : State) (h f : Nat) : HostPort := Sp.get {} s.hps (17 * h + f)
def State.setHp (s : State) (h f : Nat) (x : HostPort) : State := { s with hps := Sp.set {} s.hps (17 * h + f) x }
def State.onHp (s : State) (h f : Nat) (g : HostPort → HostPort) : State := s.setHp h f (g (s.hp h f))

def State.stream (s : State) (i : Nat) : Option StreamEntry := Sp.get none s.streams i
def State.setStream (s : State) (i : Nat) (x : Option StreamEntry) : State :=
  { s with streams := Sp.set none s.streams i x }

def State.sport (s : State) (i : Nat) : StreamPort := Sp.get {} s.sports i
def State.setSport (s : State) (i : Nat) (x : StreamPort) : State := { s with sports := Sp.set {} s.sports i x }
def State.onSport (s : State) (i : Nat) (f : StreamPort → StreamPort) : State := s.setSport i (f (s.sport i))

def State.link (s : State) (i : Nat) : Link := Sp.get {} s.links i
def State.setLink (s : State) (i : Nat) (x : Link) : State := { s with links := Sp.set {} s.links i x }
def State.onLink (s : State) (i : Nat) (f : Link → Link) : State := s.setLink i (f (s.link i))

def State.block (s : State) (b : Nat) : Block := Sp.get {} s.blocks b
def State.setBlock (s : State) (b : Nat) (x : Block) : State := { s with blocks := Sp.set {} s.blocks b x }
def State.onBlock (s : State) (b : Nat) (f : Block → Block) : State := s.setBlock b (f (s.block b))

def State.vpair (s : State) (k : Nat) : VidPair := Sp.get {} s.vpairs k
def State.setVpair (s : State) (k : Nat) (x : VidPair) : State := { s with vpairs := Sp.set {} s.vpairs k x }
def State.onVpair (s : State) (k : Nat) (f : VidPair → VidPair) : State := s.setVpair k (f (s.vpair k))

/-- Video context j of pair k (R249). -/
def State.vctx (s : State) (k j : Nat) : Option VidCtx := Sp.get none (s.vpair k).ctxs j
def State.setVctx (s : State) (k j : Nat) (x : Option VidCtx) : State :=
  s.onVpair k (fun v => { v with ctxs := Sp.set none v.ctxs j x })

def State.dchan (s : State) (c : Nat) : DdrChan := Sp.get {} s.ddr c
def State.setDchan (s : State) (c : Nat) (x : DdrChan) : State := { s with ddr := Sp.set {} s.ddr c x }
def State.onDchan (s : State) (c : Nat) (f : DdrChan → DdrChan) : State := s.setDchan c (f (s.dchan c))

def State.tenant (s : State) (t : Nat) : Tenant := Sp.get {} s.tenants t
def State.setTenant (s : State) (t : Nat) (x : Tenant) : State := { s with tenants := Sp.set {} s.tenants t x }
def State.onTenant (s : State) (t : Nat) (f : Tenant → Tenant) : State := s.setTenant t (f (s.tenant t))

def State.core (s : State) (c : Nat) : Core := Sp.get {} s.dome.cores c
def State.setCore (s : State) (c : Nat) (x : Core) : State :=
  { s with dome := { s.dome with cores := Sp.set {} s.dome.cores c x } }
def State.onCore (s : State) (c : Nat) (f : Core → Core) : State := s.setCore c (f (s.core c))

def Fn.in_ (x : Fn) (c : Nat) : InChan := Sp.get {} x.inch c
def Fn.setIn (x : Fn) (c : Nat) (v : InChan) : Fn := { x with inch := Sp.set {} x.inch c v }
def Fn.out (x : Fn) (c : Nat) : OutChan := Sp.get {} x.outch c
def Fn.setOut (x : Fn) (c : Nat) (v : OutChan) : Fn := { x with outch := Sp.set {} x.outch c v }

/-- Input channel c of the function of partition p, and its update. -/
def State.onIn (s : State) (f c : Nat) (g : InChan → InChan) : State := s.onFn f (fun x => x.setIn c (g (x.in_ c)))

def Part.ctx (x : Part) (c : Nat) : Context := Sp.get {} x.ctxs c
def Part.setCtx (x : Part) (c : Nat) (v : Context) : Part := { x with ctxs := Sp.set {} x.ctxs c v }
def Part.plate (x : Part) (h : Nat) : Option Plate := Sp.get none x.plates h
def Part.model (x : Part) (m : Nat) : Option Model := Sp.get none x.models m

def State.now (s : State) : Nat := s.clk.tick

-- Memories.

def State.setMem (s : State) (f : Mems → Mems) : State := { s with mem := f s.mem }

/-- Writes Pan bytes with check bits computed afresh: error marks of the codewords written end (R135, R139). -/
def State.panWrite (s : State) (a : Nat) (b : Bytes) : State :=
  s.setMem (fun m => { m with
    pan := Memory.write m.pan a b
    panErr := Sp.clear m.panErr (a / 8) ((b.length + 7) / 8)
    panOnce := Sp.clear m.panOnce (a / 8) ((b.length + 7) / 8) })
/-- Zero-fills Pan bytes with valid check bits (R155). -/
def State.panClear (s : State) (a n : Nat) : State :=
  s.setMem (fun m => { m with
    pan := Memory.clear m.pan a n
    panErr := Sp.clear m.panErr (a / 8) ((n + 7) / 8)
    panOnce := Sp.clear m.panOnce (a / 8) ((n + 7) / 8) })
def State.ssWrite (s : State) (a : Nat) (b : Bytes) : State :=
  s.setMem (fun m => { m with ss := Memory.write m.ss a b, ssErr := Sp.clear m.ssErr (a / 8) (b.length / 8) })
def State.ssClear (s : State) (a n : Nat) : State :=
  s.setMem (fun m => { m with ss := Memory.clear m.ss a n, ssErr := Sp.clear m.ssErr (a / 8) (n / 8) })
def State.coldWrite (s : State) (a : Nat) (b : Bytes) : State :=
  s.setMem (fun m => { m with cold := Memory.write m.cold a b, ddrErr := Sp.clear m.ddrErr (a / 32) (b.length / 32) })
def State.domeWrite (s : State) (a : Nat) (b : Bytes) : State :=
  s.setMem (fun m => { m with dome := Memory.write m.dome a b })
def State.setPte (s : State) (row : Nat) (e : DWord) : State :=
  s.setMem (fun m => { m with pte := Sp.set 0 m.pte row e })
def State.pte (s : State) (row : Nat) : DWord := Sp.get 0 s.mem.pte row

-- Free values (log 3).

/-- The next free value, and the state that has drawn it. -/
def State.draw (s : State) : Nat × State := (Config.free s.freeCtr, { s with freeCtr := s.freeCtr + 1 })

/-- `n` free bytes. -/
def State.drawBytes (s : State) (n : Nat) : Bytes × State :=
  ((List.range n).map (fun i => BitVec.ofNat 8 (Config.free (s.freeCtr + i))), { s with freeCtr := s.freeCtr + n })

-- Geometry (R61, R73 to R75, R131).

/-- Row and column of logical cell n (R61). -/
def cellRow (n : Nat) : Nat := n / 32
def cellCol (n : Nat) : Nat := n % 32

/-- The block of a logical cell (R73). -/
def blockOf (n : Nat) : Nat := 4 * (cellRow n / 8) + cellCol n / 8

/-- The cells of a block in row-major order. -/
def blockCells (b : Nat) : List Nat :=
  (List.range 64).map (fun i => 32 * (8 * (b / 4) + i / 8) + 8 * (b % 4) + i % 8)

/-- The blocks of a partition in ascending order (R74). -/
def Part.blocks (x : Part) : List Nat :=
  if x.present then (range2 x.br0 x.br1).flatMap (fun r => (range2 x.bc0 x.bc1).map (fun c => 4 * r + c)) else []

def Part.rows (x : Part) : Nat := 8 * (x.br1 + 1 - x.br0)
def Part.cols (x : Part) : Nat := 8 * (x.bc1 + 1 - x.bc0)

/-- The logical cell at a position relative to the partition's north-west cell (R75). -/
def Part.cellAt (x : Part) (r c : Nat) : Nat := 32 * (8 * x.br0 + r) + 8 * x.bc0 + c

/-- Row and column of a logical cell relative to the partition. -/
def Part.relRow (x : Part) (n : Nat) : Nat := cellRow n - 8 * x.br0
def Part.relCol (x : Part) (n : Nat) : Nat := cellCol n - 8 * x.bc0

/-- The cells of a partition in row-major order. -/
def Part.cells (x : Part) : List Nat :=
  if x.present then (List.range x.rows).flatMap (fun r => (List.range x.cols).map (fun c => x.cellAt r c)) else []

/-- The partition exists and owns the block. -/
def Part.hasBlock (x : Part) (b : Nat) : Bool :=
  x.present && decide (x.br0 ≤ b / 4) && decide (b / 4 ≤ x.br1) && decide (x.bc0 ≤ b % 4) && decide (b % 4 ≤ x.bc1)

/-- The partition, or one of its contexts, is under scrub (R435, R436). -/
def State.underScrub (s : State) (p : Nat) : Bool :=
  (s.part p).scrub || s.scrubs.any (fun w => match w with | .ctx q _ => q == p | _ => false)

/-- PVALID: the partition exists and is not being deleted (R293, R313). -/
def Part.valid (x : Part) : Bool := x.present && !x.scrub

def Part.hasCell (x : Part) (n : Nat) : Bool := decide (n < 1024) && x.hasBlock (blockOf n)

/-- The partition that owns a block. -/
def State.owner (s : State) (b : Nat) : Option Nat := (List.range 16).find? (fun p => (s.part p).hasBlock b)
def State.cellOwner (s : State) (n : Nat) : Option Nat := s.owner (blockOf n)

/-- The partition that a fault record names, 255 for none (R464). -/
def ownerByte (o : Option Nat) : Nat := o.getD 255

/-- Page numbers (R131): bits [16:7] the cell, [6:5] the Pan, [4:0] the slot. -/
def pageCell (page : Nat) : Nat := page / 128
def pagePan (page : Nat) : Nat := page / 32 % 4
def pagePanNo (page : Nat) : Nat := page / 32
def pageOf (n pan slot : Nat) : Nat := 128 * n + 32 * pan + slot
def pageBytes : Nat := 131072

/-- The layer, row and column of a unit of a page within its Pan (R132). -/
def unitLayer (unit : Nat) : Nat := unit % 8
def unitRow (page unit : Nat) : Nat := 16 * (page % 32) + unit / 256
def unitCol (unit : Nat) : Nat := unit / 8 % 32

/-- The column map of a physical row with the given defects (R70): physical column of each logical column. -/
def mapRow (defects : List Nat) : List Nat :=
  let parkW := decide (defects.length < 2) && !defects.any (· ≤ 16)
  let parkE := decide (defects.length < 2) && !defects.any (fun d => 17 ≤ d && d ≤ 33)
  ((List.range 32).foldl (fun (a : List Nat × Nat) c =>
    -- `a.2` is the next physical column to try; at most two are defects
    let p := if defects.contains a.2 then a.2 + 1 else a.2
    let p := if defects.contains p then p + 1 else p
    let next := if (parkW && c == 7) || (parkE && c == 23) then p + 2 else p + 1
    (a.1 ++ [p], next)) ([], 0)).1

/-- Defects of a row in effect. -/
def State.rowDefects (s : State) (row : Nat) : List Nat := Sp.get [] s.bru.defects row

/-- The physical column of a logical cell (R70). -/
def State.physCol (s : State) (n : Nat) : Nat := (mapRow (s.rowDefects (cellRow n))).getD (cellCol n) 0

-- What leaves the module (log 10).

def State.out (s : State) (w : Wire) : State := { s with wire := s.wire ++ [w] }

-- Interrupt sources (R457, R460).

/-- An edge source's event: pending, or marked to re-fire while a core holds its claim. -/
def State.edge (s : State) (src : Nat) : State :=
  if (List.range 8).any (fun c => (s.core c).claim == some src) then
    { s with dome := { s.dome with refire := addOnce src s.dome.refire } }
  else { s with dome := { s.dome with pend := addOnce src s.dome.pend } }

-- MSI-X and the status block (R293, R307, R308).

/-- A word of the MSI-X table: 4 entries of 4 words; the vector control words come out of reset masked. -/
def HostPort.msixWord (x : HostPort) (i : Nat) : Word :=
  let w := Sp.get 0 x.msix i
  if i % 4 == 3 then w ^^^ 1 else w

def HostPort.setMsix (x : HostPort) (i : Nat) (v : Word) : HostPort :=
  { x with msix := Sp.set 0 x.msix i (if i % 4 == 3 then v ^^^ 1 else v) }

/-- Signals a vector of function f on port h: an MSI-X write, or a pending bit while the vector or the function is masked; without
MSI-X enabled there is neither (R290, R308). -/
def State.signal (s : State) (h f vec : Nat) : State :=
  let x := s.hp h f
  if !x.msixOn then s
  else if x.msixMask || bit (x.msixWord (4 * vec + 3)) 0 then s.setHp h f { x with pba := x.pba ||| 2 ^ vec }
  else s.out (.msix h f vec)

/-- Vector 0 signals the pending frames once HP_IRQ_MOD of them are pending; 0 in the field disables that limit, and a vector
that HP_CTL disables leaves them pending (R293, R308). -/
def State.ringJudge (s : State) (h f : Nat) : State :=
  let x := s.hp h f
  let lim := fld x.irqMod 0 16
  if bit x.ctl 1 && lim != 0 && decide (x.irqPend ≥ lim) then
    (s.setHp h f { x with irqPend := 0, irqTick := none }).signal h f 0
  else s

/-- The credit limit C from D and the free bytes of the input buffer (R295). -/
def HostPort.limit (x : HostPort) : Nat := (x.pos + min 4096 (131072 - x.inbuf.length)) % 2 ^ 32

/-- Writes the status block, if one is programmed (R307). -/
def State.statusBlock (s : State) (h f : Nat) : State :=
  let x := s.hp h f
  if x.statusAddr = 0 then s
  else s.out (.host h x.statusAddr (le 4 x.tail ++ le 4 x.credit ++ le 4 x.pos ++ le 4 x.stat.toNat))

/-- Sets a bit of HP_STAT; vector 2 signals a bit that was clear (R293, R308). -/
def State.hpFlag (s : State) (h f i : Nat) : State :=
  if bit (s.hp h f).stat i then s
  else
    let s := s.onHp h f (fun x => { x with stat := setBit x.stat i })
    if bit (s.hp h f).ctl 3 then s.signal h f 2 else s

-- Frames to the host (R297 to R306).

/-- The function that serves a partition (R291). -/
def partFn (p : Nat) : Nat := p + 1

/-- Hands a frame to the egress of function f (R306); a ring that had the frame before a reset does not get it again (R288,
R317). -/
def State.push (s : State) (f : Nat) (fr : OutFrame) : State :=
  s.onFn f (fun x =>
    let had := if fr.port.isNone then x.half.find? (fun e => e.1 == fr.chan && e.2.1 == fr.seq) else none
    match had with
    | some e => { x with egress := x.egress ++ [{ fr with sent := e.2.2 }], half := dropOne e x.half }
    | none => { x with egress := x.egress ++ [fr] })

/-- A frame with the next output sequence number of its channel (R300, R301). -/
def State.sendOut (s : State) (f typ chan ctx flags : Nat) (payload : Bytes) (ref : Nat := 0) : State :=
  let o := (s.fn f).out chan
  let s := s.onFn f (fun x => x.setOut chan { o with next := wrap64 (o.next + 1) })
  s.push f { typ := typ, chan := chan, ctx := ctx, flags := flags, seq := o.next, ref := ref, payload := payload }

/-- The control counter of a host port (R301, R309). -/
def State.ctrl (s : State) (h : Nat) : Nat := Sp.get 0 s.ctrls h

/-- A control frame bound for one port, with the port's control counter (R309). -/
def State.sendCtrl (s : State) (h f typ chan : Nat) (payload : Bytes) (ref : Nat) : State :=
  let c := s.ctrl h
  let s := { s with ctrls := Sp.set 0 s.ctrls h (wrap64 (c + 1)) }
  s.push f { typ := typ, chan := chan, seq := c, ref := ref, payload := payload, port := some h }

/-- An ACCEPT: every frame of the channel below `next` is accepted (R303). -/
def State.sendAccept (s : State) (h f chan next : Nat) : State := s.sendCtrl h f 0x0D chan [] next

/-- A NACK with its reason; REF names the refused frame (R302). -/
def State.sendNack (s : State) (h f chan reason seq : Nat) : State :=
  s.sendCtrl h f 0x0E chan (le 1 reason ++ zeros 15) seq

/-- Payload of a RESP (R311). -/
def respPayload (opc result : Nat) (body : Bytes) : Bytes := le 2 opc ++ le 2 result ++ zeros 4 ++ body

/-- Answers a command of function f, and stores the answer among the last 64 (R311). -/
def State.respond (s : State) (f seq opc result : Nat) (body : Bytes) : State :=
  let pl := respPayload opc result body
  let s := s.onFn f (fun x => { x with
    answers := lastN 64 (x.answers ++ [(seq, pl)]),
    open_ := x.open_.filter (fun c => decide (c.seq ≠ seq)),
    bcmds := x.bcmds.filter (fun c => decide (c.seq ≠ seq)) })
  s.sendOut f 2 0 0 0 pl seq

-- Fault records (R464 to R470).

/-- Classes whose records are also kept in the persistent store (R467). -/
def persistClass (cls : Nat) : Bool := (8 ≤ cls && cls ≤ 11) || cls == 20 || cls == 22 || cls == 23

/-- The 32 bytes of a record (R464). -/
def FaultRec.bytes (r : FaultRec) : Bytes :=
  le 1 r.cls ++ le 1 r.reason ++ le 1 r.scope ++ le 1 r.action ++ le 1 r.part ++ le 1 r.rflags ++ le 2 r.count
    ++ le 8 r.tick ++ le 4 r.step ++ le 4 r.num ++ le 4 r.loc ++ le 4 r.detail

/-- A management frame of the module: 48-byte header, payload, and the signature of the device identity (R413). -/
def State.mgmtFrame (s : State) (mtype opc keyid result ctr : Nat) (payload : Bytes) (ver : Nat := 1) : Bytes :=
  let hdr := le 4 0x4554474D ++ le 1 ver ++ le 1 mtype ++ le 2 opc ++ le 1 keyid ++ le 1 0 ++ le 2 result
    ++ le 4 payload.length ++ le 8 s.watch.nonce ++ le 8 ctr ++ le 8 s.watch.serial ++ zeros 8
  hdr ++ payload ++ Crypto.edSign s.watch.idSeed (hdr ++ payload)

/-- An EVENT frame to the destination of EVENT_DEST, if there is one (R423). -/
def State.sendEvent (s : State) (payload : Bytes) : State :=
  if s.watch.evAddr = 0 then s
  else
    let fr := s.mgmtFrame 5 0 255 0 s.watch.evNum payload
    { s with watch := { s.watch with evNum := s.watch.evNum + 1 } }.out
      (.mgmt (s.watch.evAddr * 65536 + s.watch.evPort) fr)

/-- Sends one record: it takes its NUM, enters the histories, and goes to PF0, to its partition's function and to the
management network (R468, R469, R470). -/
def State.sendRecord (s : State) (r : FaultRec) : State :=
  let r := { r with num := s.faults.num % 2 ^ 32 }
  let fl := s.faults
  let s := { s with faults := { fl with
    num := fl.num + 1, hist := lastN 256 (fl.hist ++ [r]),
    persist := if bit (word r.rflags) 1 then lastN 64 (fl.persist ++ [r]) else fl.persist } }
  let s := if r.cls = 20 then s else s.sendOut 0 0x0C 0 0 0 r.bytes
  let s := if r.cls = 20 ∨ r.part = 255 then s else s.sendOut (partFn r.part) 0x0C 0 0 0 r.bytes
  s.sendEvent r.bytes

/-- Two records that one collection window covers (R469). -/
def sameFault (a b : FaultRec) : Bool :=
  a.cls == b.cls && a.reason == b.reason && a.scope == b.scope && a.part == b.part && a.loc == b.loc

/-- Ends a collection window: the occurrences collected go as one record (R469). -/
def State.closeWindow (s : State) (key : Nat) : State :=
  match Sp.get none s.faults.windows key with
  | none => s
  | some w =>
    let s := { s with faults := { s.faults with windows := Sp.set none s.faults.windows key none } }
    if w.extra = 0 then s else s.sendRecord { w.rec_ with count := sat16 w.extra }

/-- Length of a collection window in ticks (R469). -/
def faultWindowTicks : Nat := 100000

/-- Raises a fault (R464 to R469). -/
def State.raise (s : State) (cls reason scope action part loc detail : Nat) : State :=
  let standby := s.pair.st == .standby || s.pair.st == .resync
  let pt := s.part part
  let replay := decide (part < 16) && ((pt.rep.replay && pt.st != .boundary) || s.bru.rebuilding.contains part)
  let r : FaultRec := {
    cls := cls, reason := reason, scope := scope, action := action, part := part, loc := loc,
    detail := detail % 2 ^ 32, tick := s.now, step := if part < 16 then pt.step % 2 ^ 32 else 0,
    rflags := b2n standby + 2 * b2n (persistClass cls) + 4 * b2n replay }
  let s := { s with faults := { s.faults with
    totals := Sp.set 0 s.faults.totals cls (sat16 (Sp.get 0 s.faults.totals cls + 1)) } }
  let key := s.faults.windows.find? (fun e => match e.2 with | some w => sameFault w.rec_ r | none => false)
  match key with
  | some (k, some w) =>
    if s.now ≤ w.opened + faultWindowTicks then
      let rec' := if w.extra = 0 then r else w.rec_
      { s with faults := { s.faults with
        windows := Sp.set none s.faults.windows k (some { w with rec_ := rec', extra := w.extra + 1 }) } }
    else
      let s := s.closeWindow k
      let s := { s with faults := { s.faults with
        nextKey := s.faults.nextKey + 1, windows := Sp.set none s.faults.windows s.faults.nextKey (some { rec_ := r, opened := s.now }) } }
      s.sendRecord r
  | _ =>
    let s := { s with faults := { s.faults with
      nextKey := s.faults.nextKey + 1, windows := Sp.set none s.faults.windows s.faults.nextKey (some { rec_ := r, opened := s.now }) } }
    s.sendRecord r

-- Locations (R465).

def locCell (s : State) (n : Nat) : Nat := n + 1024 * s.physCol n
def locPan (row unit : Nat) : Nat := row + 2 ^ 17 * unit
def locDdr (chan page dev : Nat) : Nat := chan + 8 * page + 2 ^ 21 * dev
def locMesh (n dir : Nat) : Nat := 6 + 8 * n + 2 ^ 13 * dir
def locPort (port lane : Nat) : Nat := port + 8 * lane
def locVideo (k j : Nat) : Nat := k + 4 * j

-- Requests: parameters of the OPEN frame (R184) and terminal frames (R205, R206).

def Request.model (r : Request) : Nat := u8 r.params 0
def Request.oflags (r : Request) : Nat := u8 r.params 1
def Request.seqh (r : Request) : Nat := u32 r.params 4
def Request.maxtok (r : Request) : Nat := u32 r.params 8
def Request.ttl (r : Request) : Nat := u32 r.params 0x0C
def Request.seedField (r : Request) : Nat := u64 r.params 0x10
def Request.firstUs (r : Request) : Nat := u32 r.params 0x18
def Request.nextUs (r : Request) : Nat := u32 r.params 0x1C
def Request.sprof (r : Request) : Nat := u32 r.params 0x20
def Request.ntok (r : Request) : Nat := u32 r.params 0x24
def Request.resume (r : Request) : Bool := r.oflags.testBit 0
def Request.prefillOnly (r : Request) : Bool := r.oflags.testBit 1
def Request.spec (r : Request) : Bool := r.oflags.testBit 2

/-- The due tick of output k of a request (R206). -/
def Request.due (r : Request) (k : Nat) : Option Nat :=
  if r.firstUs = 0 ∧ r.nextUs = 0 then none else some (r.accTick + 100 * (r.firstUs + k * r.nextUs))

/-- A frame with its late policy applied (R129): the payload and the LATE and DISCARDED flags. -/
def latePolicy (o : OutChan) (late : Bool) (payload : Bytes) : Bytes × Nat :=
  if !late then (payload, 0) else if o.discard then ([], 6) else (payload, 2)

/-- The 16-byte token record (R205). -/
def tokenRecord (reqSeq token pos stop : Nat) : Bytes :=
  le 4 reqSeq ++ le 4 token ++ le 4 pos ++ le 1 stop ++ zeros 3

/-- Raises a DEADLINE_MISS of a partition: MISS is set and PTM_MISS counts (R128, R130). -/
def State.raiseMiss (s : State) (p reason scope loc detail : Nat) : State :=
  (s.raise 3 reason scope 0 p loc detail).onPart p
    (fun x => { x with ptmStat := setBit x.ptmStat 2, miss := sat32 (x.miss + 1) })

/-- A request of a partition, named by channel and REQ_SEQ, is replaced (R184). -/
def Part.setReq (x : Part) (r : Request) : Part :=
  { x with reqs := x.reqs.map (fun q => if q.chan = r.chan ∧ q.reqSeq = r.reqSeq then r else q) }

/-- Raises the DEADLINE_MISS of a request, once in a step (R206). -/
def State.requestMiss (s : State) (p : Nat) (r : Request) : State :=
  if r.missed then s
  else (s.raiseMiss p 2 1 (r.reqSeq % 2 ^ 32) r.chan).onPart p (fun x => x.setReq { r with missed := true })

/-- Sends the terminal frame of a request from the Dome: STOP and TOKEN as given; the POS of such a record is not
stated by the spec and is a free value (log 21). -/
def State.terminal (s : State) (p : Nat) (r : Request) (stop token : Nat) : State :=
  let (pos, s) := s.draw
  let late := match r.due r.produced with | none => false | some d => decide (s.now > d)
  let f := partFn p
  let (pl, fl) := latePolicy ((s.fn f).out r.chan) late (tokenRecord (r.reqSeq % 2 ^ 32) token pos stop)
  let s := s.sendOut f 7 r.chan r.ctx (1 + fl) pl
  if late then s.requestMiss p r else s

-- Stops and failures of a partition (R202, R472, R473, R492).

/-- The action that the record of a stop carries: the class's, or PART_FAIL when the step has stopped before with the
same CLASS and LOC, or twice without committing (R472). -/
def Part.stopAction (x : Part) (cls loc action : Nat) : Nat :=
  if x.stops.contains (cls, loc) || decide (x.stops.length ≥ 2) then 3 else action

/-- Ends every request of a failed partition with a FAILED terminal frame (R186, R473). -/
def State.failRequests (s : State) (p : Nat) : State :=
  let s := (s.part p).reqs.foldl (fun s r => if r.st == .ended || r.endSent then s else s.terminal p r 4 0xFFFFFFFF) s
  s.onPart p (fun x => { x with
    reqs := [], endedReqs := lastN 4096 (x.endedReqs ++ x.reqs.map (fun r => (r.chan, r.reqSeq))) })

/-- The partition fails: it releases no further step and its requests end (R72, R473). -/
def State.failPart (s : State) (p : Nat) : State :=
  if (s.part p).failed then s
  else (s.onPart p (fun x => { x with failed := true })).failRequests p

/-- When the reflex partition leaves RELEASED, every queued request is discarded and counted (R330). -/
def State.dropReflex (s : State) : State :=
  let s' := (s.reflexq.flatMap (·.2)).foldl (fun s r => s.onSport r.port (fun x => { x with
    reflexDrop := sat32 (x.reflexDrop + 1), stat := setBit x.stat 2 })) s
  { s' with reflexq := [] }

/-- A released step stops: the deadline is cleared and the cause recorded (R126, R202, R472). -/
def State.stopPart (s : State) (p cls loc action : Nat) : State :=
  let x := s.part p
  let act := x.stopAction cls loc action
  let s := if x.st == .released then
      s.onPart p (fun x => { x with
        st := .stopped, dl := 0, armed := false, recover := act, stops := x.stops ++ [(cls, loc)] })
    else s
  let s := if x.st == .released && x.reflex then s.dropReflex else s
  if act = 3 && x.st == .released then s.failPart p else s

/-- A fault that stops its partition: the record carries the action that follows (R466, R472). -/
def State.raiseStop (s : State) (cls reason scope action p loc detail : Nat) : State :=
  let x := s.part p
  let act := if x.st == .released then x.stopAction cls loc action else action
  (s.raise cls reason scope act p loc detail).stopPart p cls loc action

/-- The operation makes no further progress (R137, R148, R492). -/
def State.killOp (s : State) (n id : Nat) : State :=
  s.onCell n (fun c => { c with ops := c.ops.map (fun o => if o.id = id then { o with dead := true } else o) })

/-- A progress event of the partition: the watchdog's count restarts (R123). -/
def State.progress (s : State) (p : Nat) : State := s.onPart p (fun x => { x with quiet := 0 })

/-- Power state of the partition that owns a block allows work: P0 or P1 (R138, R454). -/
def State.blockRuns (s : State) (b : Nat) : Bool :=
  match s.owner b with
  | none => false
  | some p => let w := (s.part p).pw; (w.st == .p0 || w.st == .p1) && !(s.block b).oos

end Sys2Proof.Machine
end

