-- ==== Sys2Proof/Machine/Operands.lean ====
section
/-!
DEFINITION. Operand forms: the fields of a descriptor (R86 to R103), the cells and units it selects, binding entries
(R197), page-table entries (R143) with the page checks (R147), and cold-tier addresses and keys (R271 to R274).
-/
namespace Sys2Proof.Machine

/-- A descriptor, short or long, bit 0 first (R86). -/
abbrev Desc := BitVec 256

namespace Dsc

def opc (d : Desc) : Nat := fld d 0 5
def long (d : Desc) : Bool := bit d 5
def row0 (d : Desc) : Nat := fld d 6 5
def row1 (d : Desc) : Nat := fld d 11 5
def col0 (d : Desc) : Nat := fld d 16 5
def col1 (d : Desc) : Nat := fld d 21 5
def rstep (d : Desc) : Nat := 2 ^ fld d 26 2
def cstep (d : Desc) : Nat := 2 ^ fld d 28 2
def pev (d : Desc) : Nat := fld d 54 4
def pen (d : Desc) : Bool := bit d 58
def wev (d : Desc) : Nat := fld d 59 4
def wen (d : Desc) : Bool := bit d 63

/-- The cell (r, c), relative to the partition, is selected (R87). -/
def selects (d : Desc) (r c : Nat) : Bool :=
  decide (row0 d ≤ r) && decide (r ≤ row1 d) && decide (col0 d ≤ c) && decide (c ≤ col1 d)
    && (r - row0 d) % rstep d == 0 && (c - col0 d) % cstep d == 0

-- MATMUL (R93), DRAIN (R94).
def emask (d : Desc) : Nat := fld d 32 4
def acc (d : Desc) : Nat := fld d 36 1
def clr (d : Desc) : Bool := bit d 37
def fmta (d : Desc) : Nat := fld d 38 4
def fmtb (d : Desc) : Nat := fld d 42 4
def asrc (d : Desc) : Bool := bit d 46
def bsrc (d : Desc) : Bool := bit d 47
def apan (d : Desc) : Nat := fld d 48 2
def bpan (d : Desc) : Nat := fld d 50 2
def amode (d : Desc) : Nat := fld d 52 2
def aaddr (d : Desc) : Nat := fld d 64 17
def baddr (d : Desc) : Nat := fld d 81 17
def k (d : Desc) : Nat := fld d 98 16
def mm (d : Desc) : Nat := fld d 114 5 + 1
def nn (d : Desc) : Nat := fld d 119 5 + 1
def astep (d : Desc) : Nat := fld d 128 13
def bstep (d : Desc) : Nat := fld d 141 13
def drDest (d : Desc) : Bool := bit d 37
def drFmt (d : Desc) : Nat := fld d 38 4
def drRnd (d : Desc) : Nat := fld d 42 2
def drSat (d : Desc) : Bool := bit d 44
def drSmode (d : Desc) : Bool := bit d 45
def drSa (d : Desc) : Nat := fld d 64 13
def drVreg (d : Desc) : Nat := fld d 64 5
def drDstep (d : Desc) : Nat := fld d 77 13

-- VEC (R95).
def cls (d : Desc) : Nat := fld d 32 3
def func (d : Desc) : Nat := fld d 35 4
def vfmt (d : Desc) : Nat := fld d 39 4
def vrnd (d : Desc) : Nat := fld d 43 2
def vsat (d : Desc) : Bool := bit d 45
def vsmode (d : Desc) : Bool := bit d 46
def vd (d : Desc) : Nat := fld d 64 5
def va (d : Desc) : Nat := fld d 69 5
def vb (d : Desc) : Nat := fld d 74 5
def vc (d : Desc) : Nat := fld d 79 5
def valid (d : Desc) : Nat := fld d 84 8
def vsa (d : Desc) : Nat := fld d 96 13
def quad (d : Desc) : Nat := fld d 109 3

-- PANRD, PANWR (R96).
def pan (d : Desc) : Nat := fld d 32 2
def pInd (d : Desc) : Bool := bit d 34
def pPage (d : Desc) : Nat := fld d 35 16
def poff (d : Desc) : Nat := fld d 64 12
def pSa (d : Desc) : Nat := fld d 77 13
def pLen (d : Desc) : Nat := fld d 96 13

-- GATHER (R97).
def lmask (d : Desc) : Nat := fld d 32 4
def gmode (d : Desc) : Nat := fld d 36 3
def qfmt (d : Desc) : Nat := fld d 39 4
def gslot (d : Desc) : Nat := fld d 64 16
def nseq (d : Desc) : Nat := fld d 80 9
def qsa (d : Desc) : Nat := fld d 96 13
def osa (d : Desc) : Nat := fld d 109 13

-- MOVE (R98).
def kind (d : Desc) : Nat := fld d 32 2
def ssp (d : Desc) : Bool := bit d 34
def dsp (d : Desc) : Bool := bit d 35
def span (d : Desc) : Nat := fld d 36 2
def dpan (d : Desc) : Nat := fld d 38 2
def drel (d : Desc) : Bool := bit d 40
def drow (d : Desc) : Nat := fld d 41 6
def dcol (d : Desc) : Nat := fld d 47 6
def mInd (d : Desc) : Bool := bit d 53
def saddr (d : Desc) : Nat := fld d 64 17
def daddr (d : Desc) : Nat := fld d 96 17
def mLen (d : Desc) : Nat := fld d 128 13
def brow1 (d : Desc) : Nat := fld d 141 5
def bcol1 (d : Desc) : Nat := fld d 146 5

-- COLD (R99).
def dir (d : Desc) : Bool := bit d 32
def cPan (d : Desc) : Nat := fld d 33 2
def cInd (d : Desc) : Bool := bit d 35
def ppage (d : Desc) : Nat := fld d 64 16
def cslot (d : Desc) : Nat := fld d 80 16

-- BARRIER (R100), PHASE (R101), STRIN and STROUT (R103).
def stagger (d : Desc) : Bool := bit d 32
def bid (d : Desc) : Nat := fld d 33 4
def pcode (d : Desc) : Nat := fld d 32 4
def ramp (d : Desc) : Nat := fld d 36 12
def sslot (d : Desc) : Nat := fld d 32 16
def sSa (d : Desc) : Nat := fld d 64 13
def lenb (d : Desc) : Nat := fld d 77 16

/-- The issuing units of a cell that a descriptor names (R88): 0-3 engines, 4 vector unit, 5-8 Pan ports, 9-12 decode
lanes, 13 router local port; none for the sequencing unit. -/
def units (d : Desc) : List Nat :=
  match opc d with
  | 1 | 2 => (List.range 4).filter (fun e => (emask d).testBit e)
  | 3 => [4]
  | 4 | 5 => [5 + pan d]
  | 6 => ((List.range 4).filter (fun l => (lmask d).testBit l)).map (9 + ·)
  | 7 | 8 | 11 | 12 => [13]
  | _ => []

/-- BARRIER, PHASE and END go to the sequencing unit (R88). -/
def isSeq (d : Desc) : Bool := opc d == 9 || opc d == 10 || opc d == 0x1F

/-- Operations that take a transfer-tracker entry (R116). -/
def tracked (d : Desc) : Bool := opc d == 7 || opc d == 8 || opc d == 11 || opc d == 12

/-- A signed 6-bit offset (R98). -/
def off6 (n : Nat) : Int := if n ≥ 32 then (n : Int) - 64 else n

/-- Destination of a MOVE from the relative cell (r, c) (R98). -/
def dest (d : Desc) (r c : Nat) : Int × Int :=
  if drel d then ((r : Int) + off6 (drow d), (c : Int) + off6 (dcol d)) else ((drow d % 32 : Nat), (dcol d % 32 : Nat))

end Dsc

/-- A segment as it travels (R81): header and descriptors. -/
structure Segment where
  dlen : Nat := 0
  idle : Nat := 0
  pbeat : Nat := 0
  descs : List Desc := []
  deriving DecidableEq, Repr

/-- Cuts descriptor units into descriptors: the long form takes two units (R86). -/
def cutDescs : Nat → Bytes → List Desc
  | 0, _ => []
  | _, [] => []
  | f + 1, b =>
    let long := (u8 b 0).testBit 5
    let n := if long then 32 else 16
    BitVec.ofNat 256 (leNat (b.take n)) :: cutDescs f (b.drop n)

/-- The segment at an offset of a segment stream, and its length in bytes (R81). -/
def segmentAt (stream : Bytes) (off : Nat) : Segment × Nat :=
  let h := u64 stream off
  let n := bits h 0 7
  ({ dlen := n, idle := bits h 8 12, pbeat := bits h 32 32, descs := cutDescs n (slice stream (off + 8) (16 * n)) },
    8 + 16 * n)

-- Binding entries (R197).

namespace Bnd

abbrev Entry := BitVec 256

def typ (b : Entry) : Nat := fld b 0 3
def mode (b : Entry) : Bool := bit b 3
def ctx (b : Entry) : Nat := fld b 4 6
def egen (b : Entry) : Nat := fld b 10 8
def row (b : Entry) : Nat := fld b 18 17
def coldPage (b : Entry) : Nat := fld b 3 21
def coldCtx (b : Entry) : Nat := fld b 24 6
def queue (b : Entry) : Nat := fld b 3 8
def chan (b : Entry) : Nat := fld b 3 8
def octx (b : Entry) : Nat := fld b 11 6
def endsel (b : Entry) : Nat := fld b 17 2
def seq (b : Entry) : Nat := fld b 20 32
def due (b : Entry) : Nat := fld b 64 64
def interval (b : Entry) : Nat := fld b 128 64

/-- The bits that an entry of a TYPE may set (R197); every other bit is reserved. -/
def mask : Nat → Nat
  | 0 => 7
  | 1 => 2 ^ 35 - 1
  | 2 => 2 ^ 30 - 1
  | 3 => 2 ^ 11 - 1
  | _ => (2 ^ 52 - 1 - 2 ^ 19) + (2 ^ 192 - 2 ^ 64)

/-- The entry satisfies R197 and R200. -/
def fieldsOk (b : Entry) : Bool :=
  typ b ≤ 4 && b.toNat ||| mask (typ b) == mask (typ b) && !(typ b == 4 && endsel b == 3)

end Bnd

/-- The binding entry of a slot in a set of a cell (R197). -/
def State.bindEntry (s : State) (n set slot : Nat) : Bnd.Entry := Sp.get 0 s.mem.bind ((2 * n + set) * 65536 + slot)

-- Requests of a step's outputs (R186, R191).

/-- A request of the partition, by channel and REQ_SEQ. -/
def Part.req (x : Part) (chan seq : Nat) : Option Request := x.reqs.find? (fun r => r.chan == chan && r.reqSeq == seq)

/-- Requests whose last prompt tokens the chunks hold and that sample their first token with them (R186, R191). -/
def finishing (reqs : List Request) (chunks : List (Nat × Nat × Nat × Nat)) : List Request :=
  chunks.filterMap (fun c => reqs.find? (fun r =>
    r.chan == c.1 && r.reqSeq == c.2.1 && decide (r.ntok ≤ c.2.2.1 + c.2.2.2) && !r.prefillOnly))

/-- Requests that produce a token in the decision's step, in the order of their decode slots (R186, R191). -/
def Decision.tokenReqs (d : Decision) (x : Part) : List Request :=
  d.decodes.filterMap (fun e => x.req e.1 e.2.2.1) ++ finishing x.reqs d.chunks

/-- Slots that a step list names, each with the TYPE values its uses accept (R198). -/
def listUses (plates : List Plate) : List (Nat × Nat) :=
  (plates.flatMap (·.uses)).foldl (fun l (sl, m) =>
    if l.any (fun e => e.1 == sl) then l.map (fun e => if e.1 == sl then (sl, e.2 ||| m) else e) else l ++ [(sl, m)]) []

/-- Objects of a step given to binding slots of a cell, each object to one slot: which one a slot takes is the convention of the family's
plates with Dome firmware, a free value (log 43); a slot beyond their count takes none (R191). -/
def assign {α : Type} (step cell part : Nat) : List Nat → List α → List (Nat × α)
  | [], _ => []
  | slot :: t, pool =>
    let k := Config.bindTarget step cell slot part
    match pool[k]? with
    | some a => (slot, a) :: assign step cell part t (pool.eraseIdx k)
    | none => assign step cell part t pool

/-- OUT slots of a step list. -/
def outSlots (plates : List Plate) : List Nat := ((listUses plates).filter (fun e => e.2.testBit 4)).map (·.1)

/-- The places among the step's token requests that its OUT slots serve (R191, R199, log 43). -/
def outPlaces (x : Part) (step : Nat) (list : List Nat) (n : Nat) : List (Nat × Nat) :=
  assign step 0 0 (outSlots (list.filterMap x.plate)) (List.range n)

/-- The request that an OUT slot of the released step serves (R186, R197). -/
def Part.slotRequest (x : Part) (slot : Nat) : Option Request :=
  match x.decision with
  | some d =>
    let rs := d.tokenReqs x
    ((outPlaces x x.step d.list rs.length).find? (fun e => e.1 == slot)).bind (fun e => rs[e.2]?)
  | none => none

/-- The 64-bit number with the given low half nearest the current number, the lower on a tie (R301). -/
def extend32 (cur low : Nat) : Nat :=
  let base := cur / 2 ^ 32 * 2 ^ 32 + low % 2 ^ 32
  let cands := (if base ≥ 2 ^ 32 then [base - 2 ^ 32] else []) ++ [base] ++ (if base + 2 ^ 32 < 2 ^ 64 then [base + 2 ^ 32] else [])
  let dist (x : Nat) : Nat := if x ≥ cur then x - cur else cur - x
  cands.foldl (fun a x => if dist x < dist a then x else a) (cands.headD base)

-- Page-table entries (R143, R144).

namespace Pte

def fmt (e : DWord) : Nat := fld e 0 4
def kind (e : DWord) : Nat := fld e 4 3
def state (e : DWord) : Nat := fld e 7 2
def dirty (e : DWord) : Bool := bit e 9
def poison (e : DWord) : Bool := bit e 10
def part (e : DWord) : Nat := fld e 12 4
def ctx (e : DWord) : Nat := fld e 16 6
def refcnt (e : DWord) : Nat := fld e 24 12
def gen (e : DWord) : Nat := fld e 36 8
def tag (e : DWord) : Nat := fld e 44 16

def make (fmt kind state part ctx refcnt gen tag : Nat) (dirty : Bool := false) : DWord :=
  BitVec.ofNat 64 (fmt % 16 + 2 ^ 4 * (kind % 8) + 2 ^ 7 * (state % 4) + 2 ^ 9 * b2n dirty + 2 ^ 12 * (part % 16)
    + 2 ^ 16 * (ctx % 64) + 2 ^ 24 * (refcnt % 4096) + 2 ^ 36 * (gen % 256) + 2 ^ 44 * (tag % 65536))

/-- Reserved bits: 11, 23-22 and 63-60. -/
def reservedOk (e : DWord) : Bool := !bit e 11 && fld e 22 2 == 0 && fld e 60 4 == 0

/-- FREE 0, LIVE 1, SEALED 2, SCRUB 3 (R144). -/
def free : Nat := 0
def live : Nat := 1
def sealed_ : Nat := 2
def scrub : Nat := 3

/-- DATA 0, WEIGHT 1, KV 2, STATE 3, SCRATCH 4, PLATE 5 (R144). -/
def data : Nat := 0
def weight : Nat := 1
def kv : Nat := 2
def stateKind : Nat := 3
def scratch : Nat := 4
def plate : Nat := 5

end Pte

/-- The reason for which an access to a page is refused, or none (R147). `bind` holds the binding entry for an access
through a slot; `n` and `pan` are the cell and the Pan that the operation names. -/
def pageReason (s : State) (p n pan page : Nat) (bind : Option Bnd.Entry) (write : Bool) : Option Nat :=
  let e := s.pte page
  let k := Pte.kind e
  if !(s.part p).hasCell (pageCell page) || Pte.part e != p then some 1
  else if pageCell page != n || pagePan page != pan then some 2
  else if (match bind with | some b => Bnd.egen b != Pte.gen e | none => false) then some 3
  else if Pte.state e == Pte.free || Pte.state e == Pte.scrub then some 4
  else if Pte.poison e then some 5
  else if (match bind with | some _ => !(1 ≤ k && k ≤ 4) | none => !(k == 0 || k == 1)) then some 6
  else if (match bind with | some b => 2 ≤ k && k ≤ 4 && Bnd.ctx b != Pte.ctx e | none => false) then some 7
  else if write && (Pte.state e == Pte.sealed_ || k == Pte.plate
      || (match bind with | some b => !Bnd.mode b | none => false)) then some 8
  else if write && Pte.refcnt e > 1 then some 9
  else none

/-- Raises PAGE_ACCESS: the operation makes no further progress and its partition stops (R148). -/
def pageFault (s : State) (p n pan page reason opcode id : Nat) : State :=
  (s.killOp n id).raiseStop 4 reason 3 1 p (locPan page 0) (n + 2 ^ 10 * pan + 2 ^ 12 * opcode)

-- Cold tier (R271 to R274).

def coldChan (page : Nat) : Nat := page / 2 ^ 18
def coldInChan (page : Nat) : Nat := page % 2 ^ 18
/-- Cold-tier byte address of a cold page (R271, R273). -/
def coldAddr (page : Nat) : Nat := page * pageBytes
/-- The page lies in a system region (R271). -/
def isSystem (page : Nat) : Bool := coldInChan page ≥ 260096
/-- The page lies in one of the tenant's SHARED ranges (R274). -/
def Tenant.shares (t : Tenant) (page : Nat) : Bool :=
  (List.range 16).any (fun i => match Sp.get none t.ranges i with
    | some (a, n) => decide (a ≤ page) && decide (page < a + n)
    | none => false)
/-- The range of pages lies in one SHARED range of the tenant. -/
def Tenant.sharesAll (t : Tenant) (first n : Nat) : Bool :=
  (List.range 16).any (fun i => match Sp.get none t.ranges i with
    | some (a, m) => decide (a ≤ first) && decide (first + n ≤ a + m)
    | none => false)
/-- The tenant owns the page's channel, and the page lies outside the system region. -/
def State.tenantPage (s : State) (t page : Nat) : Bool :=
  decide (page < 2 ^ 21) && (s.dchan (coldChan page)).owner == some t && !isSystem page

/-- The number of the key of an access (R274): the module key, the tenant key or a context key. -/
def State.coldKeyOf (s : State) (t : Nat) (ctxKey : Option Nat) (page : Nat) : Option Nat :=
  if isSystem page then s.watch.modKey
  else if (s.tenant t).shares page then (s.tenant t).key
  else ctxKey

/-- One plaintext byte of the cold tier under a key: a data unit not written under that key reads as free bytes
(R273, R275, log 8). -/
def State.coldByte (s : State) (key : Option Nat) (a : Nat) : Byte :=
  match key with
  | none => Config.coldByte a 0
  | some k => if Sp.get 0 s.mem.coldKey (a / 64) = k + 1 then Memory.byte s.mem.cold a else Config.coldByte a (k + 1)

def State.coldRead (s : State) (key : Option Nat) (a n : Nat) : Bytes :=
  (List.range n).map (fun i => s.coldByte key (a + i))

/-- The XTS key pair with a number: the free value that was drawn for it (R274, R426, log 19). -/
def keyPair (k : Nat) : Bytes := le 64 (Config.free (k - 1))

/-- What the DDR4 devices hold of a data unit that has been written: its AES-256-XTS ciphertext under the key it was written with and
the number of the unit, byte address / 64, as tweak (R273). -/
def State.coldCipher (s : State) (unit : Nat) : Option Bytes :=
  match Sp.get 0 s.mem.coldKey unit with
  | 0 => none
  | k + 1 => some (Crypto.xtsSeal (keyPair k) unit ((List.range 64).map (fun i => Memory.byte s.mem.cold (64 * unit + i))))

/-- Marks the data units of a range as written under a key. -/
def State.coldKeyed (s : State) (key a n : Nat) : State :=
  s.setMem (fun m => { m with coldKey := Sp.write 0 m.coldKey (a / 64) (List.replicate ((n + 63) / 64) (key + 1)) })

/-- Writes bytes under a key, as read-modify-write of whole data units (R273, R455). -/
def State.coldStore (s : State) (key a : Nat) (b : Bytes) : State :=
  let lo := a / 64 * 64
  let hi := roundUp (a + b.length) 64
  let old := s.coldRead (some key) lo (hi - lo)
  let new := old.take (a - lo) ++ b ++ old.drop (a - lo + b.length)
  (s.coldWrite lo new).coldKeyed key lo (hi - lo)

end Sys2Proof.Machine
end

