-- ==== Sys2Proof/Machine/Flags.lean ====
section
/-!
DEFINITION. Flag computations: the sticky arithmetic flags of a partition (R46, R207), and the status bits and
counters that hardware events raise (R10, R11, R46, R61, R128, R130, R136, R141).
-/
namespace Sys2Proof.Machine

/-- The flags of an operation join the partition's sticky flags (R46). -/
def State.addFlags (s : State) (p : Nat) (f : Flags) : State := s.onPart p (fun x => { x with flags := x.flags.or f })

/-- ARITH of the step report: NV, OF, UF, SAT, SCL, IOV in bits 0 to 5 (R207). -/
def Flags.bits (f : Flags) : Nat :=
  b2n f.nv + 2 * b2n f.of + 4 * b2n f.uf + 8 * b2n f.sat + 16 * b2n f.scl + 32 * b2n f.iov

/-- Sets a W1C bit of PTM_STAT (R130). -/
def State.ptmFlag (s : State) (p i : Nat) : State := s.onPart p (fun x => { x with ptmStat := setBit x.ptmStat i })

/-- Sets a W1C bit of CELL_STAT (R61). -/
def State.cellFlag (s : State) (n i : Nat) : State := s.onCell n (fun c => { c with stat := setBit c.stat i })

/-- Sets a W1C bit of PAN_STAT (R141). -/
def State.panFlag (s : State) (pan i : Nat) : State := s.onPan pan (fun x => { x with stat := setBit x.stat i })

/-- Sets a W1C bit of a partition's PWR_PSTAT (R375). -/
def State.pstatFlag (s : State) (p i : Nat) : State :=
  s.onPart p (fun x => { x with pw := { x.pw with ev := setBit x.pw.ev i } })

/-- Sets a W1C bit of PWR_STAT (R374). -/
def State.pwrFlag (s : State) (i : Nat) : State := { s with power := { s.power with stat := setBit s.power.stat i } }

/-- Sets a W1C bit of CLK_STAT (R386). -/
def State.clkFlag (s : State) (i : Nat) : State := { s with clk := { s.clk with stat := setBit s.clk.stat i } }

/-- Sets a W1C bit of DDR_STAT (R289). -/
def State.ddrFlag (s : State) (c i : Nat) : State := s.onDchan c (fun x => { x with stat := setBit x.stat i })

/-- Sets a W1C bit of STP_STAT (R336). -/
def State.stpFlag (s : State) (i b : Nat) : State := s.onSport i (fun x => { x with stat := setBit x.stat b })

/-- Sets a W1C bit of VID_STAT (R269). -/
def State.vidFlag (s : State) (k b : Nat) : State := s.onVpair k (fun x => { x with stat := setBit x.stat b })

end Sys2Proof.Machine
end

