-- ==== Sys2Proof/Machine/Repair.lean ====
section
/-!
DEFINITION. Check bits, scrubbing and spare rows of the Pans (R135 to R140), staging-store errors (R57), the repair of
cells (R60, R70 to R72, R397, R476), the ageing monitors (R371) and the oscillators (R384).
-/
namespace Sys2Proof.Machine

/-- Ticks in 1 µs, 1 ms, 1 s and 1 hour (R125). -/
def usTicks : Nat := 100
def msTicks : Nat := 100000
def secTicks : Nat := 100000000
def hourTicks : Nat := 3600 * secTicks

/-- Frequency of each V/F point in units of 25 MHz (R355). -/
def vfUnits (point : Nat) : Nat :=
  [16, 20, 24, 28, 32, 36, 40, 44, 46, 48, 50, 52, 55, 58, 61, 64].getD point 64

/-- The effective ceiling (R59): the lower of FUSED and AGED. -/
def CellState.effective (c : CellState) : Nat := min c.fused c.aged

/-- The target beat rate of a cell (R59, R60): its block's point, limited by its ceiling capped at 64 units; 0 while the
block is not in P0 or P1 (R61). -/
def State.target (s : State) (n : Nat) : Nat :=
  if s.blockRuns (blockOf n) then min (vfUnits (s.block (blockOf n)).point) (min 64 (s.cell n).effective) else 0

-- Cell repair.

/-- Fused and aged ceilings of each physical column of a row: those of the logical cell that a map places there, or of a
cell that no logical column uses (R59, R397). -/
def State.physCeil (s : State) (row : Nat) (map : List Nat) (pcol : Nat) : Nat × Nat :=
  match map.findIdx? (· == pcol) with
  | some c => let x := s.cell (32 * row + c); (x.fused, x.aged)
  | none => (64, (Sp.get none s.bru.physAged (34 * row + pcol)).getD 64)

/-- What belongs to a physical cell and not to its logical place moves with the column (R70): the error histories of its
staging store and the spare rows its Pans have used, from the logical cell that stood there before, if any. -/
def State.carryPhys (s0 t : State) (row : Nat) (old : List Nat) (n pcol : Nat) : State :=
  let src := (old.findIdx? (· == pcol)).map (fun c => 32 * row + c)
  let hist := match src with | some m => ((s0.cell m).ssUeTick, (s0.cell m).ssCeTicks) | none => (none, [])
  let t := t.onCell n (fun x =>
    { x with
      ssUeTick := hist.1
      ssCeTicks := hist.2 })
  (List.range 4).foldl (fun u k =>
    let q := match src with | some m => s0.pan (4 * m + k) | none => {}
    let x := u.pan (4 * n + k)
    u.setPan (4 * n + k) { x with spare := q.spare, replaced := q.replaced, copying := [] }) t

/-- A moved cell's contents are lost: its staging store, registers, Pan contents, slice, queues and event channels; the
partition re-establishes them (R71, R160). -/
def State.loseCell (s : State) (n : Nat) : State :=
  let s := s.ssClear (262144 * n) 262144
  let s := s.panClear (128 * pageBytes * n) (128 * pageBytes)
  let s := s.setMem (fun m => { m with
    acc := Sp.clear m.acc (8192 * n) 8192
    vreg := Sp.clear m.vreg (4096 * n) 4096
    pte := Sp.clear m.pte (128 * n) 128
    bind := Sp.clear m.bind (131072 * n) 131072 })
  s.onCell n (fun c => { c with segBuf := [], queues := [], ops := [], tokens := [], grants := [], lastTile := [] })

/-- Stops a partition for a repair (R71, R202): its moved cells are re-established and it replays from its last committed step. A
partition that has no step released is rebuilt as it stands; one that has failed stays failed (R471, R473). -/
def State.repairStop (s : State) (p cls loc action : Nat) (moved : Bool) : State :=
  let s := if moved then s.onPart p (fun x => { x with rep := { x.rep with repair := true } }) else s
  let x := s.part p
  if x.st == .released || action ≠ 2 || x.recover = 3 then s.stopPart p cls loc action
  else s.onPart p (fun x => { x with recover := 2 })

/-- No spare is left in the row: the failed cell's block goes out of service and its partition fails (R72). -/
def State.noSpare (s : State) (n : Nat) : State :=
  let b := blockOf n
  let o := s.owner b
  let loc := locCell s n
  let s := s.onBlock b (fun x => { x with oos := true })
  let s := { s with bru := { s.bru with noSpare := addOnce (cellRow n) s.bru.noSpare } }
  let s := s.raise 9 0 2 3 (ownerByte o) loc b
  match o with
  | none => s
  | some p => (s.stopPart p 9 loc 3).failPart p

/-- Remaps a row to a new defect set: logical columns whose physical column changes move (R70, R71). -/
def State.remapRow (s : State) (row : Nat) (defects : List Nat) : List Nat × State :=
  let old := mapRow (s.rowDefects row)
  let new := mapRow defects
  let moved := (List.range 32).filter (fun c => old.getD c 0 != new.getD c 0)
  let s' := moved.foldl (fun (t : State) c =>
    let n := 32 * row + c
    let (f, a) := s.physCeil row old (new.getD c 0)
    let t := (t.loseCell n).onCell n (fun x => { x with fused := f, aged := a })
    (s.carryPhys t row old n (new.getD c 0)).cellFlag n 3) s
  let freed := old.filter (fun q => !new.contains q)
  let s' := { s' with bru := { s'.bru with
    defects := Sp.set [] s'.bru.defects row defects
    noSpare := if defects.length ≥ 2 then addOnce row s'.bru.noSpare else s'.bru.noSpare
    physAged := freed.foldl (fun l q => Sp.set none l (34 * row + q) (some (s.physCeil row old q).2)) s'.bru.physAged } }
  (moved, s')

/-- A failed cell: recorded with an aged ceiling of 0 (R397), and repaired by R71, or by R72 where its row's defects
already number two. -/
def State.failCell (s : State) (n reason : Nat) (bringUp : Bool := false) : State :=
  let row := cellRow n
  let p0 := s.physCol n
  let own := s.cellOwner n
  let loc := locCell s n
  let s := s.onCell n (fun c => { c with aged := 0 })
  let defs := s.rowDefects row
  if defs.length ≥ 2 then s.noSpare n
  else
    let (moved, s) := s.remapRow row (defs ++ [p0])
    let s := { s with bru := { s.bru with physAged := Sp.set none s.bru.physAged (34 * row + p0) (some 0) } }
    let act := if bringUp then 0 else 2
    let s := s.raise 8 reason 2 act (ownerByte own) loc (moved.headD 0 + 32 * moved.getLastD 0)
    (List.range 16).foldl (fun t p =>
      if moved.any (fun c => (t.part p).hasCell (32 * row + c)) then t.repairStop p 8 loc act (own != some p) else t) s

-- Pan rows.

/-- Takes a spare row for a row of one layer of a Pan (R139), or fails the cell when none is left (R140). -/
def State.replaceRow (s : State) (pan layer row reason page unit : Nat) (bringUp : Bool := false) : State :=
  let key := layer * 512 + row
  let x := s.pan pan
  let used := Sp.get 0 x.spare layer
  if x.copying.contains key then s
  else if used ≥ 8 then s.failCell (pan / 4) 2 bringUp
  else
    let out := used + 1 == 8
    let s := s.setPan pan { x with
      spare := Sp.set 0 x.spare layer (used + 1)
      replaced := addOnce key x.replaced
      copying := addOnce key x.copying
      stat := if out then setBit (setBit x.stat 2) 3 else setBit x.stat 2 }
    s.raise 10 reason 3 5 (ownerByte (s.cellOwner (pan / 4))) (locPan page unit)
      (layer + 8 * (used + 1) + 256 * b2n out)

/-- PAN_LAST_ERR (R141). -/
def lastErrWord (unc : Bool) (slot unit cw : Nat) : Word := word (cw + 4 * unit + 2 ^ 14 * slot + 2 ^ 19 * b2n unc)

/-- A corrected error in codeword `cw` of a unit (R136, R139). -/
def State.panCorrected (s : State) (page unit cw : Nat) : State :=
  let pan := pagePanNo page
  let idx := (page * pageBytes + 32 * unit) / 8 + cw
  let s := s.onPan pan (fun x => { x with
    ce := sat32 (x.ce + 1), stat := setBit x.stat 0, lastErr := lastErrWord false (page % 32) unit cw })
  let again := Sp.get 0 s.mem.panOnce idx != 0
  let s := s.setMem (fun m => { m with panErr := Sp.del m.panErr idx, panOnce := Sp.set 0 m.panOnce idx 1 })
  if again then s.replaceRow pan (unitLayer unit) (unitRow page unit) 1 page unit else s

/-- An uncorrectable error in codeword `cw` of a unit (R137, R139, R467). -/
def State.panUncorrectable (s : State) (page unit cw : Nat) (patrol : Bool) : State :=
  let pan := pagePanNo page
  let idx := (page * pageBytes + 32 * unit) / 8 + cw
  let e := s.pte page
  let s := if Pte.state e == Pte.live || Pte.state e == Pte.sealed_ then s.setPte page (setBit e 10) else s
  let s := s.onPan pan (fun x => { x with
    ue := sat32 (x.ue + 1), stat := setBit x.stat 1, lastErr := lastErrWord true (page % 32) unit cw })
  let s := s.setMem (fun m => { m with panErr := Sp.set 0 m.panErr idx 2 })
  let own := s.cellOwner (pageCell page)
  let det := cw + 256 * b2n patrol
  let s := match own with
    | some p => s.raiseStop 1 2 3 2 p (locPan page unit) det
    | none => s.raise 1 2 3 2 255 (locPan page unit) det
  s.replaceRow pan (unitLayer unit) (unitRow page unit) 2 page unit

/-- Errors listed for the codewords of a byte range: index and 1 correctable, 2 uncorrectable. -/
def errsIn (l : Sparse Nat) (a n : Nat) : List (Nat × Nat) :=
  l.filter (fun e => decide (a / 8 ≤ e.1) && decide (e.1 < (a + n + 7) / 8))

/-- Page, unit and codeword of a Pan codeword by its number (R132, R135). -/
def codewordAt (i : Nat) : Nat × Nat × Nat := (8 * i / pageBytes, 8 * i % pageBytes / 32, i % 4)

/-- Reads a Pan range: corrected errors are counted, and an uncorrectable one delivers no data (R136, R137). The codewords are read
in ascending order (R133); the first that cannot be corrected ends the read, and those beyond it are not judged (log 143). -/
def State.panFetch (s : State) (a n : Nat) : Option Bytes × State :=
  let errs := errsIn s.mem.panErr a n
  let s := (errs.takeWhile (fun e => e.2 != 2)).foldl (fun s e =>
    let (pg, u, cw) := codewordAt e.1; s.panCorrected pg u cw) s
  match errs.find? (fun e => e.2 == 2) with
  | some (i, _) => let (pg, u, cw) := codewordAt i; (none, s.panUncorrectable pg u cw false)
  | none => (some (Memory.read s.mem.pan a n), s)

/-- A row that is being copied into a spare holds units of a Pan byte range: accesses to it wait (R132, R139). -/
def State.rowBusy (s : State) (a n : Nat) : Bool :=
  decide (0 < n) && (range2 (a / pageBytes) ((a + n - 1) / pageBytes)).any (fun page =>
    (s.pan (pagePanNo page)).copying.any (fun key =>
      key % 512 / 16 == page % 32 && (List.range 32).any (fun col =>
        let u := (page * pageBytes) / 32 + 256 * (key % 16) + 8 * col + key / 512
        decide (a / 32 ≤ u) && decide (u ≤ (a + n - 1) / 32))))

/-- An uncorrectable staging-store error: the cell fails on a second one within an hour (R57, R476). -/
def State.ssUncorrectable (s : State) (n : Nat) : State :=
  let again := match (s.cell n).ssUeTick with | some t => decide (s.now ≤ t + hourTicks) | none => false
  let now := s.now
  let s := s.onCell n (fun c => { c with stat := setBit c.stat 1, ssUeTick := some now })
  let s := match s.cellOwner n with
    | some p => s.raiseStop 1 1 2 1 p (locCell s n) 0
    | none => s.raise 1 1 2 1 255 (locCell s n) 0
  if again then s.failCell n 4 else s

/-- A corrected staging-store error: 64 in one second fail the cell (R57, R476). -/
def State.ssCorrected (s : State) (n idx : Nat) : State :=
  let now := s.now
  let s := s.onCell n (fun c => { c with
    stat := setBit c.stat 0, ssCe := sat32 (c.ssCe + 1)
    ssCeTicks := c.ssCeTicks.filter (fun t => decide (now < t + secTicks)) ++ [now] })
  let s := s.setMem (fun m => { m with ssErr := Sp.del m.ssErr idx })
  if (s.cell n).ssCeTicks.length ≥ 64 then (s.onCell n (fun c => { c with ssCeTicks := [] })).failCell n 4 else s

/-- Reads a range of a cell's staging store (R57). -/
def State.ssFetch (s : State) (n a len : Nat) : Option Bytes × State :=
  let base := 262144 * n + a
  let errs := errsIn s.mem.ssErr base len
  let s := (errs.takeWhile (fun e => e.2 != 2)).foldl (fun s e => s.ssCorrected n e.1) s
  if errs.any (fun e => e.2 == 2) then (none, s.ssUncorrectable n)
  else (some (Memory.read s.mem.ss base len), s)

/-- Codewords whose check bits have been computed afresh: no error is left in them (R135, R139). -/
def State.panChecked (s : State) (a n : Nat) : State :=
  s.setMem (fun m => { m with
    panErr := Sp.clear m.panErr (a / 8) ((n + 7) / 8)
    panOnce := Sp.clear m.panOnce (a / 8) ((n + 7) / 8) })

-- The commands.

/-- The mark of a codeword for what a read of it finds: 0 clean, 1 correctable, 2 uncorrectable (R135). -/
def eccMark : Ecc → Nat
  | .clean => 0
  | .corrected => 1
  | .uncorrectable => 2

/-- A second wrong bit in one codeword is not correctable (R135). -/
def strike (mark : Nat) : Nat := if mark = 0 then 1 else 2

/-- A soft error comes into a memory (R57, R135, R277, log 13). -/
def State.upset (s : State) (u : Config.Upset) : State :=
  s.setMem (fun m => match u with
    | .pan cw => if cw < 2147483648 then { m with panErr := Sp.set 0 m.panErr cw (strike (Sp.get 0 m.panErr cw)) } else m
    | .staging cw => if cw < 33554432 then { m with ssErr := Sp.set 0 m.ssErr cw (strike (Sp.get 0 m.ssErr cw)) } else m
    | .cold cw dev =>
      if cw < 8589934592 ∧ dev < 19 then { m with ddrErr := Sp.set 0 m.ddrErr cw (Sp.get 0 m.ddrErr cw ||| 2 ^ dev) } else m)

/-- PAN_PATROL_READ: in a beat numbered a multiple of 64 the patrol scrubber reads the next unit of the Pan and corrects
or reports what it finds in its codewords: an error that stands in the array, or one that the operand brings (R138). -/
def execPanPatrolRead (pan : Nat) (found : List Ecc) (s : State) : Out :=
  let n := pan / 4
  let beat := (s.cell n).beats
  let x := s.pan pan
  let page := 32 * pan + x.patrol / 4096
  let unit := x.patrol % 4096
  if pan < 4096 ∧ s.blockRuns (blockOf n) ∧ beat % 64 = 0 ∧ x.patrolBeat ≠ some beat ∧ s.rowBusy (page * pageBytes + 32 * unit) 32 = false then
    let s := s.setPan pan { x with patrol := (x.patrol + 1) % 131072, patrolBeat := some beat }
    .next ((List.range 4).foldl (fun s cw =>
      let mark := Sp.get 0 s.mem.panErr ((page * pageBytes + 32 * unit) / 8 + cw)
      match max mark (eccMark (found.getD cw .clean)) with
      | 0 => s
      | 1 => s.panCorrected page unit cw
      | _ => s.panUncorrectable page unit cw true) s)
  else .next s

/-- ROW_COPY_COMPLETE: the row's 32 locations stand in the spare, zero in place of any uncorrectable codeword, and
accesses to the row resume (R139). -/
def execRowCopyComplete (pan layer row : Nat) (s : State) : Out :=
  let key := layer * 512 + row
  let x := s.pan pan
  if x.copying.contains key then
    let s := s.setPan pan { x with copying := x.copying.filter (· ≠ key) }
    -- the 32 units of the row: page slot row / 16, units 256 (row mod 16) + 8 column + layer
    let page := 32 * pan + row / 16
    .next ((List.range 32).foldl (fun (s : State) col =>
      let a := page * pageBytes + 32 * (256 * (row % 16) + 8 * col + layer)
      (List.range 4).foldl (fun (s : State) cw =>
        if Sp.get 0 s.mem.panErr (a / 8 + cw) = 2 then s.panClear (a + 8 * cw) 8 else s.panChecked (a + 8 * cw) 8) s) s)
  else .next s

/-- CELL_REPAIR: a failed cell joins its row's defects, the row is remapped, and the partitions owning moved cells stop
and replay; without a spare, R72 (R71). -/
def execCellRepair (n reason : Nat) (s : State) : Out :=
  .next (if n < 1024 then s.failCell n reason else s)

/-- AGEING_CHECK: once a second in P0 the monitor tests the replica path; the eighth failing check in a row lowers AGED
by one, at most once per hour, and a cell below 16 units fails (R60, R371). -/
def execAgeingCheck (n : Nat) (below : Bool) (s : State) : Out :=
  let c := s.cell n
  let inP0 : Bool := match s.cellOwner n with | some p => (s.part p).pw.st == .p0 | none => false
  let due : Bool := match c.ageCheck with | some t => decide (t + secTicks ≤ s.now) | none => true
  if n < 1024 ∧ inP0 ∧ due then
    let fails := if below then c.ageFails + 1 else 0
    let may : Bool := match c.ageTick with | some t => decide (t + hourTicks ≤ s.now) | none => true
    let s := s.setCell n { c with ageCheck := some s.now, ageFails := fails }
    if 8 ≤ fails ∧ may ∧ 0 < c.aged then
      let s := s.setCell n { c with
        ageCheck := some s.now, ageFails := 0, ageTick := some s.now, aged := c.aged - 1, stat := setBit c.stat 2 }
      .next (if (s.cell n).effective < 16 then s.failCell n 1 else s)
    else .next s
  else .next s

/-- OSCILLATOR_TRIM: the cell compares the beats of the last 1 µs with its target and moves the trim code of its V/F point
toward the target (R384). How far the code moves is not stated: a free value (log 22). -/
def execOscillatorTrim (n : Nat) (beats : Nat) (s : State) : Out :=
  let want := 25 * s.target n
  let pt := (s.block (blockOf n)).point
  if n < 1024 ∧ 0 < s.target n ∧ beats ≠ want then
    let (d, s) := s.draw
    let old := Sp.get 0 (s.cell n).trim pt
    let new := if beats < want then old + 1 + d else old - (1 + d)
    .next (s.onCell n (fun c => { c with trim := Sp.set 0 c.trim pt new }))
  else .next s

/-- The far cell of a mesh link: directions 0-3 local N, E, S, W and 4-7 express in the same order (R62, R465). -/
def meshFar (n dir : Nat) : Option Nat :=
  let d := if dir < 4 then 1 else 8
  let r := cellRow n
  let c := cellCol n
  match dir % 4 with
  | 0 => if d ≤ r then some (n - 32 * d) else none
  | 1 => if c + d < 32 then some (n + d) else none
  | 2 => if r + d < 32 then some (n + 32 * d) else none
  | _ => if d ≤ c then some (n - d) else none

/-- MESH_FLIT_RESEND: a flit whose CRC-8 fails is sent again; 16 resends in 1 ms fail the link's east or south end cell
(R476). -/
def execMeshFlitResend (n dir : Nat) (s : State) : Out :=
  match meshFar n dir with
  | none => .next s
  | some far =>
    if n < 1024 ∧ dir < 8 then
      let now := s.now
      let l := (Sp.get [] (s.cell n).resends dir).filter (fun t => decide (now < t + msTicks)) ++ [now]
      if 16 ≤ l.length then
        let s := s.onCell n (fun c => { c with resends := Sp.set [] c.resends dir [] })
        .next (s.failCell (max n far) 3)
      else .next (s.onCell n (fun c => { c with resends := Sp.set [] c.resends dir l }))
    else .next s

end Sys2Proof.Machine
end

