-- ==== Sys2Proof/Machine/VideoCtx.lean ====
section
/-!
DEFINITION. The parameter block of a video context (R251): its fields, the geometry of its storage, and the encode jobs that
Dome firmware submits for harvested input buffers (R265, R266).
-/
namespace Sys2Proof.Machine

namespace Vid

/-- Fields of the 128-byte parameter block (R251). -/
def mode (b : Bytes) : Nat := u8 b 0
def codec (b : Bytes) : Nat := u8 b 1
def pair (b : Bytes) : Nat := u8 b 2
def bit10 (b : Bytes) : Bool := (u8 b 3).testBit 0
def lumaOnly (b : Bytes) : Bool := (u8 b 3).testBit 1
def maxw (b : Bytes) : Nat := u16 b 4
def maxh (b : Bytes) : Nat := u16 b 6
def dpbn (b : Bytes) : Nat := u8 b 8
def picPages (b : Bytes) : Nat := u32 b 0x0C
def picBase (b : Bytes) : Nat := u32 b 0x10
def chan (b : Bytes) : Nat := u16 b 0x14
def cropX (b : Bytes) : Nat := u16 b 0x18
def cropY (b : Bytes) : Nat := u16 b 0x1A
def cropW (b : Bytes) : Nat := u16 b 0x1C
def cropH (b : Bytes) : Nat := u16 b 0x1E
def ow (b : Bytes) : Nat := u16 b 0x20
def oh (b : Bytes) : Nat := u16 b 0x22
def scale (b : Bytes) : Nat := u8 b 0x24
def colour (b : Bytes) : Nat := u8 b 0x25
def ofmt (b : Bytes) : Nat := u8 b 0x26
def nbuf (b : Bytes) : Nat := u8 b 0x27
def tw (b : Bytes) : Nat := u16 b 0x28
def th (b : Bytes) : Nat := u16 b 0x2A
def hx (b : Bytes) : Nat := u8 b 0x2C
def hy (b : Bytes) : Nat := u8 b 0x2D
def mean (b : Bytes) (c : Nat) : Nat := u32 b (0x30 + 4 * c)
def scaleF (b : Bytes) (c : Nat) : Nat := u32 b (0x3C + 4 * c)
def shBase (b : Bytes) : Nat := u32 b 0x48
def rcMode (b : Bytes) : Nat := u8 b 0x50
def qpI (b : Bytes) : Nat := u8 b 0x51
def qpP (b : Bytes) : Nat := u8 b 0x52
def qpMin (b : Bytes) : Nat := u8 b 0x53
def qpMax (b : Bytes) : Nat := u8 b 0x54
def sliceRows (b : Bytes) : Nat := u8 b 0x55
def keyInt (b : Bytes) : Nat := u16 b 0x56
def bitrate (b : Bytes) : Nat := u32 b 0x58
def cpbBits (b : Bytes) : Nat := u32 b 0x5C
def initFull (b : Bytes) : Nat := u32 b 0x60
def fnum (b : Bytes) : Nat := u16 b 0x64
def fden (b : Bytes) : Nat := u16 b 0x66

/-- ceil(a / b). -/
def cdiv (a b : Nat) : Nat := (a + b - 1) / b

/-- MAXW and MAXH rounded up to multiples of 64, and the bytes of a sample (R251). -/
def wa (b : Bytes) : Nat := roundUp (maxw b) 64
def ha (b : Bytes) : Nat := roundUp (maxh b) 64
def sampleBytes (b : Bytes) : Nat := if bit10 b then 2 else 1

/-- Cold pages of a raw input picture, Q, and of a picture, P (R251). -/
def rawPages (b : Bytes) : Nat := cdiv (wa b * ha b * 3 * sampleBytes b) (2 * 131072)
def picturePages (b : Bytes) : Nat := rawPages b + cdiv (wa b * ha b) (16 * 131072)

/-- Tiles of an output picture, NTILE (R251). -/
def ntile (b : Bytes) : Nat := cdiv (ow b) (tw b) * cdiv (oh b) (th b)

/-- Cold pages of one buffer set, and of all of them. -/
def setPages (b : Bytes) : Nat := if mode b = 1 then ntile b else rawPages b
def allSets (b : Bytes) : Nat := nbuf b * setPages b

/-- First cold page of a buffer set. -/
def setBase (b : Bytes) (set : Nat) : Nat := shBase b + set * setPages b

end Vid

/-- The page ranges of an open context. -/
def Vid.ranges (b : Bytes) : List (Nat × Nat) := [(Vid.picBase b, Vid.picPages b), (Vid.shBase b, Vid.allSets b)]

/-- The context decodes: MODE of its parameter block (R251). -/
def VidCtx.isDecode (c : VidCtx) : Bool := Vid.mode c.params == 1

/-- The pair and context that a partition numbers VCTX. -/
def State.findVctx (s : State) (p v : Nat) : Option (Nat × Nat × VidCtx) :=
  (List.range 4).findSome? (fun k => (List.range 8).findSome? (fun j =>
    match s.vctx k j with
    | some c => if c.part = p ∧ c.vctx = v then some (k, j, c) else none
    | none => none))

/-- Updates every video context of a partition. -/
def State.onVctxs (s : State) (p : Nat) (f : VidCtx → VidCtx) : State :=
  (List.range 32).foldl (fun s i => match s.vctx (i / 8) (i % 8) with
    | some c => if c.part = p then s.setVctx (i / 8) (i % 8) (some (f c)) else s
    | none => s) s

/-- A harvest to a cold page of an input buffer: the buffer's picture is the running step's (R265). -/
def State.noteHarvest (s : State) (p page : Nat) : State :=
  s.onVctxs p (fun c =>
    let b := c.params
    if !c.isDecode && decide (Vid.shBase b ≤ page) && decide (page < Vid.shBase b + Vid.allSets b) then
      { c with harvested := addOnce ((page - Vid.shBase b) / Vid.setPages b) c.harvested }
    else c)

/-- The harvests of a committed step await the boundary's submission of their jobs (R265). -/
def VidCtx.commitHarvests (c : VidCtx) : VidCtx :=
  { c with
    harvested := []
    toSubmit := c.toSubmit ++ c.harvested }

/-- Encode jobs are submitted at a boundary for the buffers that the committed step harvested, the first with KEY where a key picture
was requested (R265, R266). -/
def VidCtx.submit (c : VidCtx) : VidCtx :=
  c.toSubmit.foldl (fun c set => { c with
    jobs := c.jobs ++ [{ set := set, key := c.keyReq }], keyReq := false, used := addOnce set c.used }) { c with toSubmit := [] }

/-- At the commit of a step of a partition, and at the boundary that follows once its requests are applied (R265, R266). -/
def State.commitHarvests (s : State) (p : Nat) : State := s.onVctxs p VidCtx.commitHarvests
def State.submitJobs (s : State) (p : Nat) : State := s.onVctxs p VidCtx.submit

/-- At an abort: the step's harvests will come again. -/
def State.dropHarvests (s : State) (p : Nat) : State := s.onVctxs p (fun c => { c with harvested := [] })

end Sys2Proof.Machine
end

