-- ==== Sys2Proof/Machine/Frames.lean ====
section
/-!
DEFINITION. Kigrim frames as bytes (R297 to R299), the size a frame is charged in egress (R306), stream entries (R322),
and errors of the cold tier (R277, R278).
-/
namespace Sys2Proof.Machine

namespace Fr

/-- Fields of a frame's 32-byte header (R298). -/
def typ (b : Bytes) : Nat := u8 b 0
def ver (b : Bytes) : Nat := u8 b 1
def chan (b : Bytes) : Nat := u8 b 2
def ctx (b : Bytes) : Nat := u8 b 3 % 64
def flags (b : Bytes) : Nat := u16 b 4
def seq (b : Bytes) : Nat := u64 b 8
def plen (b : Bytes) : Nat := u32 b 16
def payload (b : Bytes) : Bytes := slice b 32 (plen b)

/-- The header reserves bits 31-30, 63-48 and 255-224, and an inbound frame's REF is 0 (R298). -/
def reservedOk (b : Bytes) : Bool := u8 b 3 / 64 == 0 && u16 b 6 == 0 && u32 b 28 == 0

/-- The header of an outbound frame (R298). -/
def header (typ ver chan ctx flags seq plen ref : Nat) : Bytes :=
  le 1 typ ++ le 1 ver ++ le 1 chan ++ le 1 (ctx % 64) ++ le 2 flags ++ zeros 2 ++ le 8 seq ++ le 4 plen ++ le 8 ref
    ++ zeros 4

end Fr

/-- Every frame but the RESP of HELLO and SESSION, which goes to one port in clear, is protected while a session exists
(R309). -/
def OutFrame.protectable (f : OutFrame) : Bool := f.port.isNone || f.typ != 2

/-- Bytes of a frame in a receive ring: header, payload and any tag, padded to 64 (R297, R306). -/
def OutFrame.ringBytes (f : OutFrame) (enc : Bool) : Nat := roundUp (32 + f.payload.length + 16 * b2n enc) 64

/-- Ring bytes that a function's egress holds (R306). -/
def Fn.egressBytes (x : Fn) : Nat := x.egress.foldl (fun a f => a + f.ringBytes f.protectable) 0

/-- The egress of a function: 256 KiB (R306). -/
def egressLimit : Nat := 262144

-- Mailbox commands (R311 to R313, R493).

/-- Opcode of a command. -/
def Cmd.opc (c : Cmd) : Nat := u16 c.payload 0

/-- HELLO and SESSION stand outside the numbering and the order of channel 0 (R493). -/
def Cmd.outside (c : Cmd) : Bool := c.opc == 1 || c.opc == 2

/-- Commands marked B (R313). -/
def isB (opc : Nat) : Bool := [0x0202, 0x0302, 0x0303, 0x0304, 0x0603].contains opc

/-- Command codes on PF0 alone, and on partition functions alone (R313, R337, R441). -/
def pf0Codes : List Nat := range2 0x0101 0x0109 ++ range2 0x0701 0x0706 ++ range2 0x0801 0x0806
def partCodes : List Nat :=
  [0x0003] ++ range2 0x0201 0x0203 ++ range2 0x0301 0x0304 ++ range2 0x0401 0x0407 ++ range2 0x0501 0x0505
    ++ range2 0x0601 0x0603 ++ [0x0901]

/-- The OPC is defined (R313). -/
def knownOpc (opc : Nat) : Bool := opc == 1 || opc == 2 || pf0Codes.contains opc || partCodes.contains opc

/-- The command of a function that stands first, beside HELLO and SESSION and codes that are answered UNKNOWN_OP, once none but B commands
is in progress (R311, R313, R493). -/
def Fn.headCmd (x : Fn) : Option Cmd :=
  if x.open_.all (fun c => isB c.opc) then x.cmds.find? (fun c => !c.outside && knownOpc c.opc) else none

namespace StreamEntry

/-- Fields of a stream entry (R322). -/
def kind (e : StreamEntry) : Nat := u8 e.raw 0
def ports (e : StreamEntry) : Nat := u8 e.raw 1
def udp (e : StreamEntry) : Nat := u16 e.raw 2
def part (e : StreamEntry) : Nat := u8 e.raw 4
def chan (e : StreamEntry) : Nat := u8 e.raw 5
def vctx (e : StreamEntry) : Nat := u8 e.raw 6
def payloadType (e : StreamEntry) : Nat := u8 e.raw 7
/-- The source filter, as the number that the 16 network-order bytes of an IPv6 address are. -/
def src (e : StreamEntry) : Nat := beNat (slice e.raw 8 16)
def ssrcField (e : StreamEntry) : Nat := u32 e.raw 0x18
def periodUs (e : StreamEntry) : Nat := u32 e.raw 0x1C
def latUs (e : StreamEntry) : Nat := u32 e.raw 0x20
def discardLate (e : StreamEntry) : Bool := (u8 e.raw 0x24).testBit 0
def onPort (e : StreamEntry) (port : Nat) : Bool := (ports e).testBit port

end StreamEntry

/-- The first stream entry that satisfies a test, with its index. -/
def State.findStream (s : State) (p : StreamEntry → Bool) : Option (Nat × StreamEntry) :=
  (List.range 32).findSome? (fun i => match s.stream i with
    | some e => if p e then some (i, e) else none
    | none => none)

-- The licence in force (R408, R410).

/-- A byte of the licence in force; 0 where none is in force. -/
def State.licByte (s : State) (off : Nat) : Nat :=
  if s.watch.licValid then (match s.watch.licence with | some b => u8 b off | none => 0) else 0
def State.licBlocks (s : State) : Nat := s.licByte 0x18
def State.licParts (s : State) : Nat := s.licByte 0x19
def State.licVideo (s : State) : Bool := (s.licByte 0x1A).testBit 0
def State.licReflex (s : State) : Bool := (s.licByte 0x1A).testBit 1

-- Errors of the cold tier (R277, R278, R289).

/-- DDR_LAST_ERR (R289). -/
def ddrErrWord (unc : Bool) (page dev : Nat) : Word := word (coldInChan page + 2 ^ 18 * dev + 2 ^ 23 * b2n unc)

/-- An uncorrectable codeword of the cold tier: counted, reported with MEM_UE, and a COLD operation that meets it fails its
partition (R278, R289, R467). -/
def State.ddrUncorrectable (s : State) (page dev : Nat) (coldOp : Option Nat) : State :=
  let c := coldChan page
  let s := s.onDchan c (fun x => { x with
    ue := sat32 (x.ue + 1), stat := setBit x.stat 1, lastErr := ddrErrWord true page dev })
  let loc := locDdr c (coldInChan page) dev
  match coldOp with
  | some p => s.raiseStop 1 3 4 3 p loc 0
  | none => s.raise 1 3 4 0 255 loc 0

/-- SPARE_ST as DDR_STAT shows it (R289). -/
def SpareState.code : SpareState → Nat
  | .normal => 0 | .copying => 1 | .spared => 2 | .exposed => 3

/-- A DDR_DEVICE record of a channel; DETAIL is the sparing state after the event (R467). -/
def State.ddrDevice (s : State) (c reason action dev : Nat) : State :=
  s.raise 11 reason 4 action 255 (locDdr c 0 dev) (s.dchan c).sp.code

/-- The channel enters EXPOSED (R279, R289). -/
def State.expose (s : State) (c dev : Nat) : State :=
  (s.onDchan c (fun d =>
    { d with
      sp := .exposed
      exposedDev := some dev
      stat := setBit d.stat 2 })).ddrDevice c 3 6 dev

/-- A device fails in service (R279); 18 is the spare, which is not read before it is in use (R270). -/
def State.failDevice (s : State) (c dev : Nat) : State :=
  let d := s.dchan c
  if 18 < dev || d.oos || d.failed == dev || d.copyDev == some dev then s
  else match d.sp with
  | .normal =>
    if dev = 18 then s
    else (s.setDchan c { d with sp := .copying, copyDev := some dev }).ddrDevice c 1 5 dev
  | .copying => s.expose c dev
  | .spared => s.expose c dev
  | .exposed => s

/-- A corrected codeword of a device: counted, and the device fails at either threshold (R278, R279, R289). -/
def State.ddrCorrected (s : State) (c page dev : Nat) : State :=
  let d := s.dchan c
  let lim := max 1 d.ceLim
  let l := lastN lim ((Sp.get [] d.ceTicks dev).filter (fun t => decide (s.now < t + secTicks)) ++ [s.now])
  let run := if d.run.1 = dev then d.run.2 + 1 else 1
  let s := s.setDchan c { d with
    ce := sat32 (d.ce + 1), stat := setBit d.stat 0, lastErr := ddrErrWord false page dev, ceTicks := Sp.set [] d.ceTicks dev l
    run := (dev, run) }
  if lim ≤ l.length || 4 ≤ run then s.failDevice c dev else s

/-- The wrong devices of a codeword that a read meets: the device that the spare replaces is not read, nor is one whose copy runs, nor
the spare while it replaces none (R270, R279, log 150). -/
def DdrChan.wrong (d : DdrChan) (mask : Nat) : List Nat :=
  (List.range 19).filter (fun v => mask.testBit v && d.failed != v && d.copyDev != some v && (v != 18 || d.failed != 31))

/-- The outcome of a codeword: none clean, a device that is corrected, or the first of those that cannot be; an error confined to one
device is corrected, and in EXPOSED only one of the device that failed (R277, R279). -/
def DdrChan.outcome (d : DdrChan) (mask : Nat) : Option (Bool × Nat) :=
  match d.wrong mask with
  | [] => none
  | [v] => some (d.sp != .exposed || d.exposedDev == some v, v)
  | v :: _ => some (false, v)

/-- Reads the codewords of a range of the cold tier: corrected ones are counted, and the first that fails correction ends the read with
its fault (R277, R278, log 143); `op` is the partition of a COLD operation. -/
def State.coldJudge (s : State) (a n : Nat) (op : Option Nat) : Bool × State :=
  (s.mem.ddrErr.filter (fun e => decide (a / 32 ≤ e.1) && decide (e.1 < (a + n + 31) / 32))).foldl
    (fun (r : Bool × State) e =>
      if !r.1 then r
      else
        let page := 32 * e.1 / pageBytes
        let c := coldChan page
        match (r.2.dchan c).outcome e.2 with
        | none => r
        | some (true, v) => (true, r.2.ddrCorrected c page v)
        | some (false, v) => (false, r.2.ddrUncorrectable page v op)) (true, s)

/-- Reads a cold page under a key for a COLD operation of a partition; an uncorrectable codeword delivers nothing (R278). -/
def State.coldFetch (s : State) (key : Option Nat) (page p : Nat) : Option Bytes × State :=
  match s.coldJudge (coldAddr page) pageBytes (some p) with
  | (false, s) => (none, s)
  | (true, s) => (some (s.coldRead key (coldAddr page) pageBytes), s)

end Sys2Proof.Machine
end

