-- ==== Sys2Proof/Machine/Ether.lean ====
section
/-!
DEFINITION. Ethernet frames as a port receives them, from their destination address up to their FCS (R319 to R321, R412): MACsec, the
802.1Q tag, IPv4, IPv6 and UDP with their checks, and the requests of address resolution. The formats are those of the standards
that R319 to R321 name (log 156).
-/
namespace Sys2Proof.Machine

/-- A datagram whose frame has passed the checks of its port: addresses, ports, VLAN and the UDP payload (R319 to R324, R331). -/
structure Datagram where
  ethSrc : Nat := 0
  vlan : Option Nat := none
  srcIp : Nat := 0
  dstIp : Nat := 0
  srcPort : Nat := 0
  dstPort : Nat := 0
  payload : Bytes := []
  deriving DecidableEq, Repr

/-- An IPv4 address as an IPv6 number, ::ffff:a.b.c.d (R322). -/
def v4mapped (a : Nat) : Nat := 0xFFFF * 2 ^ 32 + a

namespace Eth

/-- A number in network order. -/
def num (b : Bytes) (off len : Nat) : Nat := beNat (slice b off len)

/-- Destination and source address, and what follows them, from the EtherType on. -/
def dst (b : Bytes) : Nat := num b 0 6
def src (b : Bytes) : Nat := num b 6 6
def rest (b : Bytes) : Bytes := b.drop 12

/-- Lengths that a port takes: Ethernet's least, and 9,216 bytes with the FCS, which is not among the bytes here (R319). -/
def lengthOk (b : Bytes) : Bool := decide (14 ≤ b.length) && decide (b.length + 4 ≤ 9216)

/-- The sum of the 16-bit words of a byte string, an odd byte padded with zero: a one's-complement checksum is right where the sum of
all that it covers, itself included, is a multiple of 65,535 above 0. -/
def words : Bytes → Nat
  | a :: b :: t => 256 * a.toNat + b.toNat + words t
  | [a] => 256 * a.toNat
  | [] => 0
def sumOk (n : Nat) : Bool := n != 0 && n % 65535 == 0

-- MACsec (R321).

/-- Association and packet number of a SecTAG, its length, and its SCI: the one it carries, or that of its source address. -/
def secAn (r : Bytes) : Nat := u8 r 2 % 4
def secPn (r : Bytes) : Nat := num r 4 4
def secLen (r : Bytes) : Nat := if (u8 r 2).testBit 5 then 16 else 8
def secSci (b r : Bytes) : Bytes := if (u8 r 2).testBit 5 then slice r 8 8 else slice b 6 6 ++ bytes [0, 1]

/-- What a frame with a SecTAG protects, from its EtherType on: decrypted, or in clear where it is only authenticated; none where its tag
or its ICV is not valid. -/
def secOpen (sak b : Bytes) : Option Bytes :=
  let r := rest b
  let n := secLen r
  let tci := u8 r 2
  let sl := u8 r 3
  let data := r.drop n
  let len := if sl = 0 then data.length - 16 else sl
  let nonce := secSci b r ++ slice r 4 4
  let aad := b.take (12 + n)
  let icv := slice data len 16
  if tci.testBit 7 || decide (64 ≤ sl) || decide (data.length < len + 16) then none
  else match tci.testBit 3, tci.testBit 2 with
  | true, true => Crypto.gcmOpen sak nonce aad (data.take len) icv
  | false, false => (Crypto.gcmOpen sak nonce (aad ++ data.take len) [] icv).map (fun _ => data.take len)
  | _, _ => none

/-- A frame carries a SecTAG. -/
def tagged (b : Bytes) : Bool := num (rest b) 0 2 == 0x88E5

-- VLAN, network and transport (R319).

/-- VID of an 802.1Q tag, and what follows it, from the inner EtherType on. -/
def untag (r : Bytes) : Option Nat × Bytes :=
  if num r 0 2 = 0x8100 then (some (num r 2 2 % 4096), r.drop 4) else (none, r)

/-- A network packet: source, destination, protocol, pseudo-header sum and payload. -/
structure Packet where
  src : Nat := 0
  dst : Nat := 0
  proto : Nat := 0
  pseudo : Nat := 0
  v6 : Bool := false
  data : Bytes := []
  deriving DecidableEq, Repr

/-- An IPv4 packet without options, no fragment, its header checksum right (R319). -/
def ipv4 (b : Bytes) : Option Packet :=
  let len := num b 2 2
  if u8 b 0 ≠ 0x45 ∨ b.length < len ∨ len < 20 ∨ num b 6 2 % 16384 ≠ 0 ∨ sumOk (words (b.take 20)) = false then none
  else some {
    src := v4mapped (num b 12 4), dst := v4mapped (num b 16 4), proto := u8 b 9
    pseudo := words (slice b 12 8) + u8 b 9 + (len - 20), data := slice b 20 (len - 20) }

/-- An IPv6 packet; its next header is the transport: extension headers are not taken (R319). -/
def ipv6 (b : Bytes) : Option Packet :=
  let len := num b 4 2
  if u8 b 0 / 16 ≠ 6 ∨ b.length < 40 + len then none
  else some {
    src := num b 8 16, dst := num b 24 16, proto := u8 b 6, v6 := true
    pseudo := words (slice b 8 32) + u8 b 6 + len, data := slice b 40 len }

/-- The packet behind an EtherType. -/
def packet (r : Bytes) : Option Packet :=
  match num r 0 2 with
  | 0x0800 => ipv4 (r.drop 2)
  | 0x86DD => ipv6 (r.drop 2)
  | _ => none

/-- Source port, destination port and payload of a UDP datagram whose checksum is right: IPv4 may leave it out (R319). -/
def udp (p : Packet) : Option (Nat × Nat × Bytes) :=
  let b := p.data
  let len := num b 4 2
  let sum := num b 6 2
  let ok := if sum = 0 then !p.v6 else sumOk (p.pseudo + words (b.take len))
  if p.proto ≠ 17 ∨ len < 8 ∨ len ≠ b.length ∨ ok = false then none else some (num b 0 2, num b 2 2, slice b 8 (len - 8))

/-- The datagram of a frame, from the EtherType on. -/
def datagram (mac : Nat) (r : Bytes) : Option Datagram :=
  let (vlan, r) := untag r
  (packet r).bind (fun p => (udp p).map (fun u => {
    ethSrc := mac, vlan := vlan, srcIp := p.src, dstIp := p.dst, srcPort := u.1, dstPort := u.2.1, payload := u.2.2 }))

-- Address resolution (R320).

/-- An ARP request of an IPv4 address: the address that is sought, and who asks. -/
def arp (r : Bytes) : Option (Nat × Nat) :=
  let b := r.drop 2
  if num r 0 2 = 0x0806 ∧ num b 0 4 = 0x00010800 ∧ num b 4 4 = 0x06040001 ∧ 28 ≤ b.length then
    some (v4mapped (num b 24 4), v4mapped (num b 14 4))
  else none

/-- A neighbour solicitation: an ICMPv6 message of type 135 with its checksum right and hop limit 255. -/
def solicit (r : Bytes) : Option (Nat × Nat) :=
  match packet r with
  | some p =>
    if p.v6 ∧ p.proto = 58 ∧ u8 (r.drop 2) 7 = 255 ∧ num p.data 0 2 = 0x8700 ∧ 24 ≤ p.data.length ∧ sumOk (p.pseudo + words p.data) then
      some (num p.data 8 16, p.src)
    else none
  | none => none

/-- A request of address resolution: VLAN, the address sought, and who asks. -/
def request (r : Bytes) : Option (Option Nat × Nat × Nat) :=
  let (vlan, r) := untag r
  ((arp r).orElse (fun _ => solicit r)).map (fun q => (vlan, q.1, q.2))

/-- A group address, to which requests of address resolution are sent. -/
def group (a : Nat) : Bool := (a / 2 ^ 40).testBit 0

end Eth

-- Link security (R321).

/-- Link security of a received frame: what it carries from its EtherType on, and the port with its replay window moved; none where it is
discarded. With MACsec it must carry a valid tag of an installed association inside the replay window; without, it must carry none. -/
def StreamPort.receive (x : StreamPort) (b : Bytes) : Option (Bytes × StreamPort) :=
  let r := Eth.rest b
  if Eth.lengthOk b = false then none
  else match x.macsec, Eth.tagged b with
  | false, false => some (r, x)
  | true, true =>
    let an := Eth.secAn r
    let pn := Eth.secPn r
    let high := Sp.get 0 x.rxPn an
    match Sp.get none x.rxSa an with
    | none => none
    | some a =>
      if pn ≠ 0 ∧ high + 1 ≤ pn + x.replayWin then
        (Eth.secOpen a.sak b).map (fun t => (t, { x with rxPn := Sp.set 0 x.rxPn an (max high pn) }))
      else none
  | _, _ => none

/-- Packet number at which the module stops transmitting on an association (R321). -/
def pnLimit : Nat := 0xFFFFFFF0

/-- Sets MACSEC_PN when the packet number of the port's current association has reached the limit (R321, R336). -/
def StreamPort.checkPn (x : StreamPort) : StreamPort :=
  match Sp.get none x.txSa x.txAn with
  | some a => if x.macsec ∧ a.pn ≥ pnLimit then { x with stat := setBit x.stat 3 } else x
  | none => x

/-- The secure channel takes one frame for transmission: the association and packet number that it gets, none in clear; no frame goes
out where the packet numbers are used up (R321). -/
def State.transmit (s : State) (port : Nat) : Option (Option (Nat × Nat) × State) :=
  let x := s.sport port
  if !x.macsec then some (none, s)
  else match Sp.get none x.txSa x.txAn with
    | none => none
    | some a =>
      if a.pn ≥ pnLimit then none
      else
        let y : StreamPort := { x with txSa := Sp.set none x.txSa x.txAn (some { a with pn := a.pn + 1 }) }
        some (some (x.txAn, a.pn), s.setSport port y.checkPn)

end Sys2Proof.Machine
end

