-- ==== Sys2Proof/Machine/Pages.lean ====
section
/-!
DEFINITION. The page table and its operations (R142 to R162): one shared operation that judges and applies, and the
commands that start one in a window, end it, and complete a zero-fill.
-/
namespace Sys2Proof.Machine

/-- Results of a page-table operation (R157). -/
def ptOk : Nat := 0
def ptBadState : Nat := 1
def ptRefLimit : Nat := 2
def ptRefZero : Nat := 3
def ptScratchRef : Nat := 4
def ptBusy : Nat := 5
def ptStale : Nat := 6
def ptField : Nat := 7
def ptOwner : Nat := 8
def ptInUse : Nat := 9

/-- The partition that contains the page's cell has a released step (R158). -/
def State.pageReleased (s : State) (row : Nat) : Bool :=
  match s.cellOwner (pageCell row) with
  | some p => (s.part p).st == .released
  | none => false

/-- The checks on FMT, KIND and CTX that ALLOC and RESTORE answer with FIELD (R143, R156). -/
def pteFieldsOk (v : DWord) : Bool :=
  let k := Pte.kind v
  k ≤ 5 && Pte.fmt v != 15 && !((k == 0 || k == 5) && Pte.fmt v != 0) && !((k == 0 || k == 1 || k == 5) && Pte.ctx v != 0)

/-- PART of the entry is an existing partition that contains the page's cell (R156). -/
def pteOwnerOk (s : State) (row : Nat) (v : DWord) : Bool := (s.part (Pte.part v)).hasCell (pageCell row)

/-- The block of the page's cell is in P3: its page-table slice is off and reads as 0 (R160). -/
def State.sliceOff (s : State) (row : Nat) : Bool :=
  match s.cellOwner (pageCell row) with
  | some p => (s.part p).pw.st == .p3
  | none => false

/-- The refusal of an operation, in the order of R156, or none. A RETAG to the reserved FMT 0xF is a FIELD (R19). -/
def ptRefusal (s : State) (op row : Nat) (v : DWord) (gchk : Bool) (egen : Nat) : Option Nat :=
  let e := s.pte row
  let st := Pte.state e
  let held := st == Pte.live || st == Pte.sealed_
  let k := Pte.kind e
  let stateOk : Bool := match op with
    | 0 => true
    | 1 | 8 => st == Pte.free
    | 4 => st == Pte.live
    | _ => held
  if op > 8 then some ptField
  else if op ≠ 0 && s.pageReleased row && !(op ≠ 8 && (k == Pte.plate || (op == 1 && Pte.kind v == Pte.plate)))
    then some ptBusy
  else if gchk && Pte.gen e != egen % 256 then some ptStale
  else if !stateOk then some ptBadState
  else match op with
    | 1 => if !pteFieldsOk v then some ptField else if !pteOwnerOk s row v then some ptOwner else none
    | 2 => if Pte.refcnt e == 4095 then some ptRefLimit
           else if k == Pte.scratch then some ptScratchRef else none
    | 3 => if Pte.refcnt e == 0 then some ptRefZero
           else if k == Pte.scratch then some ptScratchRef else none
    | 4 => if k == Pte.scratch then some ptField else none
    | 5 => if Pte.fmt v != 15
              && (Pte.kind v == k || (k == Pte.scratch && (Pte.kind v == Pte.kv || Pte.kind v == Pte.stateKind))) then none
           else some ptField
    | 7 => if Pte.refcnt e != 0 && k != Pte.scratch then some ptInUse else none
    | 8 => if Pte.state v == Pte.free || Pte.state v == Pte.scrub || !Pte.reservedOk v
              || (Pte.kind v == Pte.scratch && Pte.refcnt v != 1) || !pteFieldsOk v then some ptField
           else if !pteOwnerOk s row v then some ptOwner else none
    | _ => none

/-- The entry after an operation that is not refused (R154, R156). -/
def ptEntry (op : Nat) (e v : DWord) : DWord :=
  match op with
  | 1 => Pte.make (Pte.fmt v) (Pte.kind v) Pte.live (Pte.part v) (Pte.ctx v) (if Pte.kind v == Pte.scratch then 1 else 0)
           (Pte.gen e) (Pte.tag v)
  | 2 => putFld e 24 12 (Pte.refcnt e + 1)
  | 3 => putFld e 24 12 (Pte.refcnt e - 1)
  | 4 => putFld e 7 2 Pte.sealed_
  | 5 => putFld (putFld (putFld e 0 4 (Pte.fmt v)) 4 3 (Pte.kind v)) 44 16 (Pte.tag v)
  | 6 => putBit e 9 false
  | 7 => putFld e 7 2 Pte.scrub
  | 8 => putBit v 9 true
  | _ => e

/-- One page-table operation: its RESULT and its effect; an operation that is refused changes nothing (R156). FREE starts
the fill engine on the page (R154, R155). A slice that is off keeps nothing that is written to it (R160, log 136). -/
def ptOp (s : State) (op row : Nat) (v : DWord) (gchk : Bool := false) (egen : Nat := 0) : Nat × State :=
  match ptRefusal s op row v gchk egen with
  | some r => (r, s)
  | none =>
    let s' := if s.sliceOff row then s else s.setPte row (ptEntry op (s.pte row) v)
    (ptOk, if op = 7 then { s' with filling := addOnce row s'.filling } else s')

/-- A write of PAN_PT_CMD in window w: while BUSY it is discarded and sets CMD_IGN, otherwise the operation starts on the
row in PAN_PT_ROW with PAN_PTE as input (R156, R159). -/
def ptStart (s : State) (w op : Nat) (gchk : Bool) (egen : Nat) : State :=
  let x := s.win w
  if x.busy then s.setWin w { x with cmdIgn := true }
  else
    let (r, s) := ptOp s op x.row x.pte gchk egen
    s.onWin w (fun x => { x with busy := true, running := some (r, x.row) })

/-- PT_READ: the operation ends with the row's entry in PAN_PTE (R156). -/
def execPtRead (w : Nat) (gchk : Bool) (egen : Nat) (s : State) : Out := .next (ptStart s w 0 gchk egen)

/-- ALLOC: a FREE page becomes LIVE with the fields of PAN_PTE (R154). -/
def execAlloc (w : Nat) (gchk : Bool) (egen : Nat) (s : State) : Out := .next (ptStart s w 1 gchk egen)

/-- REF_INC: REFCNT rises by one (R151, R156). -/
def execRefInc (w : Nat) (gchk : Bool) (egen : Nat) (s : State) : Out := .next (ptStart s w 2 gchk egen)

/-- REF_DEC: REFCNT falls by one (R151, R156). -/
def execRefDec (w : Nat) (gchk : Bool) (egen : Nat) (s : State) : Out := .next (ptStart s w 3 gchk egen)

/-- SEAL: LIVE to SEALED (R154, R156). -/
def execSeal (w : Nat) (gchk : Bool) (egen : Nat) (s : State) : Out := .next (ptStart s w 4 gchk egen)

/-- RETAG: FMT and TAG, and KIND from SCRATCH to KV or STATE (R156, R161). -/
def execRetag (w : Nat) (gchk : Bool) (egen : Nat) (s : State) : Out := .next (ptStart s w 5 gchk egen)

/-- CLEAN: DIRTY clears (R156). -/
def execClean (w : Nat) (gchk : Bool) (egen : Nat) (s : State) : Out := .next (ptStart s w 6 gchk egen)

/-- FREE: the page goes to SCRUB and the fill engine starts (R154, R155). -/
def execFree (w : Nat) (gchk : Bool) (egen : Nat) (s : State) : Out := .next (ptStart s w 7 gchk egen)

/-- RESTORE: a FREE row takes the whole entry of PAN_PTE, with DIRTY set (R154, R156). -/
def execRestore (w : Nat) (gchk : Bool) (egen : Nat) (s : State) : Out := .next (ptStart s w 8 gchk egen)

/-- PAGE_TABLE_OP_END: BUSY clears, RESULT and PAN_PTE are set, and PT_Wc is raised (R156, R457). -/
def execPageTableOpEnd (w : Nat) (s : State) : Out :=
  let x := s.win w
  match x.running with
  | none => .next s
  | some (r, row) =>
    .next ((s.setWin w { x with busy := false, running := none, result := r, pte := s.pte row }).edge (136 + w))

/-- The page in SCRUB is zero-filled and FREE with GEN advanced, every other field 0 (R154, R155). -/
def State.fillDone (s : State) (page : Nat) : State :=
  let e := s.pte page
  if Pte.state e == Pte.scrub then
    let s := (s.panClear (page * pageBytes) pageBytes).setPte page (Pte.make 0 0 0 0 0 0 (Pte.gen e + 1) 0)
    { s with filling := s.filling.filter (· ≠ page) }
  else s

/-- FILL_COMPLETE (R154). -/
def execFillComplete (page : Nat) (s : State) : Out := .next (s.fillDone page)

/-- FREE of every page of a list, by Dome firmware; a page that a list still names stays (R151, R156). -/
def State.freePages (s : State) (rows : List Nat) : State :=
  rows.foldl (fun s row =>
    let e := s.pte row
    if (Pte.state e == Pte.live || Pte.state e == Pte.sealed_) && (Pte.refcnt e == 0 || Pte.kind e == Pte.scratch) then
      { s.setPte row (putFld e 7 2 Pte.scrub) with filling := addOnce row s.filling }
    else s) s

/-- The images of an unloaded plate, table or weights handle are gone from the SHARED ranges. -/
def State.dropImages (s : State) (p : Nat) (rows : List Nat) : State :=
  s.onPart p (fun x => { x with
    imgPages := x.imgPages.filter (fun e => !rows.contains e.1), imgCold := x.imgCold.filter (fun e => !rows.contains e.1) })

/-- A list that named the pages gives them up: REF_DEC, and FREE of each page that no list names any more (R151). -/
def State.dropRefs (s : State) (rows : List Nat) : State :=
  rows.foldl (fun s row =>
    let e := s.pte row
    let e' := if Pte.kind e == Pte.scratch then e else putFld e 24 12 (Pte.refcnt e - 1)
    (s.setPte row e').freePages [row]) s

/-- The Pan pages that a sequence's lists name (R151, R187). -/
def Sequence.rows (q : Sequence) : List Nat := q.pages.flatMap (fun l => l.filterMap id)

/-- The cold pages that a sequence holds (R187). -/
def Sequence.coldPages (q : Sequence) : List Nat := q.cold.map (fun c => c.2.2)

/-- The rows of the partition's cells in ascending order. -/
def Part.rowsOf (x : Part) : List Nat := x.cells.flatMap (fun n => (List.range 128).map (fun i => 128 * n + i))

/-- FREE rows of a partition. -/
def State.freeRows (s : State) (p : Nat) : List Nat := (s.part p).rowsOf.filter (fun r => Pte.state (s.pte r) == Pte.free)

end Sys2Proof.Machine
end

