-- ==== Sys2Proof/Machine/Requests.lean ====
section
/-!
DEFINITION. Requests and sequences as Dome firmware keeps them (R184 to R188, R204 to R206, R217, R222 to R226, R242): the entries
that their pages hold, their ends, and what the commit of a step does to them.
-/
namespace Sys2Proof.Machine

namespace Engine

open Arith

/-- Bytes of one operand row of K elements (R92). -/
def rowBytes (fmt k : Nat) : Nat :=
  if isMx fmt then (k + 1023) / 1024 * groupBytes fmt else (k * elemBits fmt + 255) / 256 * 32

end Engine

namespace Lane

/-- Units of a tile: a key part and a value part of 1,024 elements each (R166, R167). -/
def tileUnits (fmt : Nat) : Nat := 2 * (Engine.rowBytes fmt 1024 / 32)

/-- Entries per tile, and the entry capacity of a page (R166, R167). -/
def tileEntries (d : Nat) : Nat := 1024 / d
def capacity (fmt d : Nat) : Nat := 4080 / tileUnits fmt * tileEntries d

/-- Formats of KV and SCRATCH pages (R166), and of query rows (R169). -/
def kvFmt (c : Nat) : Bool := (1 ≤ c && c ≤ 4) || (9 ≤ c && c ≤ 14)
def queryFmt (c : Nat) : Bool := 1 ≤ c && c ≤ 4
/-- Scalar operand formats (R180). -/
def inputFmt (c : Nat) : Bool := 1 ≤ c && c ≤ 7

/-- Head dimension of a DCODE (R168). -/
def headDim (dcode : Nat) : Nat := 16 * 2 ^ dcode

end Lane

/-- The registration of a model slot, or an empty one. -/
def Part.modelAt (x : Part) (m : Nat) : Model := (x.model m).getD {}

/-- Entries that a KV page of the model can hold (R167). -/
def Model.pageCap (m : Model) : Nat := max 1 (Lane.capacity m.kvfmt (Lane.headDim m.dcode))

/-- The (layer, KV head) triples of a sequence of the model (R165). -/
def Model.triples (m : Model) : Nat := m.layers * m.kvheads

/-- A sequence of the partition, by context and handle; one that is not listed is FREE (R187). -/
def Part.seqOf (x : Part) (ctx seqh : Nat) : Option Sequence := x.seqs.find? (fun q => q.ctx == ctx && q.seqh == seqh)

/-- A sequence that satisfies a test, by the channel and handle that an EVENT item holds (R285). -/
def Part.seqByChan (x : Part) (chan seqh : Nat) (ok : Sequence → Bool) : Option Sequence :=
  x.seqs.find? (fun q => q.chan == chan && q.seqh == seqh && ok q)

def Part.setSeq (x : Part) (q : Sequence) : Part :=
  { x with seqs := x.seqs.map (fun o => if o.ctx = q.ctx ∧ o.seqh = q.seqh then q else o) }
def Part.delSeq (x : Part) (q : Sequence) : Part :=
  { x with seqs := x.seqs.filter (fun o => decide (¬(o.ctx = q.ctx ∧ o.seqh = q.seqh))) }

/-- A log entry of an input channel is consumed (R284). -/
def State.useEntry (s : State) (f chan seq : Nat) : State :=
  s.onIn f chan (fun c => { c with entries := c.entries.map (fun e => if e.seq = seq then { e with used := true } else e) })

-- Entries of a sequence's pages.

/-- Entries of the pages of a list after `n` more, each page holding at most `cap`; a page that a commit left partly filled takes no
more once another follows it (R172, R222). -/
def growCounts (cap : Nat) (cs : List Nat) (n : Nat) : List Nat :=
  let room := match cs.getLast? with | some c => cap - c | none => 0
  let k := min n room
  let cs := if k = 0 then cs else cs.dropLast ++ [cs.getLastD 0 + k]
  cs ++ List.replicate ((n - k) / cap) cap ++ (if (n - k) % cap = 0 then [] else [(n - k) % cap])

/-- Free entry slots of the last page of a sequence that holds entries (R222). -/
def Sequence.room (q : Sequence) (cap : Nat) : Nat := match q.counts.getLast? with | some c => cap - c | none => 0

/-- A sequence with `n` more entries. -/
def Sequence.grow (q : Sequence) (cap n : Nat) : Sequence :=
  { q with
    len := q.len + n
    counts := growCounts cap q.counts n }

/-- Entries of a request's sequence rise (R172, R222). -/
def State.growSequence (s : State) (p : Nat) (r : Request) (n : Nat) : State :=
  match (s.part p).seqOf r.ctx r.seqh with
  | some q => s.onPart p (fun x => x.setSeq (q.grow (x.modelAt q.model).pageCap n))
  | none => s

/-- A sequence is FREE again: its Pan pages, work pages and draft entries are given up (R151, R187, R224). -/
def State.freeSequence (s : State) (p : Nat) (q : Sequence) : State :=
  ((s.dropRefs (q.rows ++ q.work.filterMap id)).freePages q.scratch).onPart p (fun x => x.delSeq q)

/-- The end of a request (R186, R187, R224): with TTL_MS 0 its sequence is freed, otherwise it pauses, after a pending
commit; a QUEUED request leaves its sequence as it was. Draft entries that await no commit are discarded (R161). -/
def State.endRequest (s : State) (p : Nat) (r : Request) : State :=
  let s := s.onPart p (fun x => { x with
    reqs := x.reqs.filter (fun q => decide (¬(q.chan = r.chan ∧ q.reqSeq = r.reqSeq)))
    endedReqs := lastN 4096 (x.endedReqs ++ [(r.chan, r.reqSeq)]) })
  let s := s.useEntry (partFn p) r.chan r.reqSeq
  if r.st == .queued then s
  else match (s.part p).seqOf r.ctx r.seqh with
    | none => s.freePages r.scratch
    | some q =>
      if r.ttl = 0 then (s.freePages r.scratch).freeSequence p q
      else
        let keep := r.commitPend.isSome
        let s := if keep then s else s.freePages r.scratch
        s.onPart p (fun x => x.setSeq { q with
          st := .pausing, ttl := r.ttl, chan := r.chan, pend := r.commitPend.map (fun c => (r.reqSeq, c.1, c.2))
          scratch := if keep then r.scratch else [] })

/-- A request whose step has committed: it ends with the step's END frame, with the Dome's terminal frame once MAXTOK
tokens have left, or goes on in DECODE (R186, R206). -/
def State.requestCommitted (s : State) (p : Nat) (r : Request) : State :=
  if r.endSent then s.endRequest p r
  else if r.prefillOnly then (s.terminal p r 0 0xFFFFFFFF).endRequest p r
  else if r.produced ≥ r.maxtok then (s.terminal p r 0 0xFFFFFFFF).endRequest p r
  else s.onPart p (fun x => x.setReq { r with st := .decode, sent := 0 })

-- Verification (R220 to R226).

/-- SUSP_N of the request's sampling profile (R208). -/
def Part.suspN (x : Part) (r : Request) : Nat :=
  match x.model r.model with
  | some m => (match Sp.get none m.profiles r.sprof with | some b => u8 b 0x19 | none => 0)
  | none => 0

/-- The place in a DATA page that the family designates for a request's accept record or commit map: which DATA page of the
partition it is, and which unit of it, is a free value (R221, R222, log 149). -/
def State.familyPlace (s : State) (p : Nat) (r : Request) (what : Nat) : Option Nat :=
  let rows := (s.part p).rowsOf.filter (fun w => Pte.state (s.pte w) == Pte.live && Pte.kind (s.pte w) == Pte.data)
  let i := Config.familyPlace (s.part p).step r.chan r.reqSeq what
  rows[i % max 1 rows.length]?.map (fun w => w * pageBytes + 32 * (i / max 1 rows.length % 4094))

/-- The accept record that the verify plate has written for a request: N and the path (R221). -/
def State.acceptRecord (s : State) (p : Nat) (r : Request) : (Nat × List Nat) × State :=
  match s.familyPlace p r 0 with
  | none => ((0, []), s)
  | some a =>
    match s.panFetch a 96 with
    | (none, s) => ((0, []), s)
    | (some b, s) => ((u8 b 4, (slice b 0x20 (min 64 (u8 b 5))).map (·.toNat)), s)

/-- A verify step's outcome for a request: N and the path from its accept record, the count of all-reject steps, and a suspension; with
an empty path nothing is to be committed, and the draft entries are discarded (R220 to R222, R226). -/
def State.verifyCommitted (s : State) (p : Nat) (r : Request) : State :=
  let (a, s) := s.acceptRecord p r
  let rejects := if a.1 ≤ 1 ∧ !r.endSent then r.rejects + 1 else 0
  let n := (s.part p).suspN r
  let susp := r.suspended || (n ≠ 0 && decide (rejects ≥ n))
  let s := if susp && !r.suspended then
      s.onPart p (fun x => { x with evts := x.evts ++ [(6, r.chan, r.reqSeq, 0)] })
    else s
  let s := if a.2.isEmpty then s.freePages r.scratch else s
  s.requestCommitted p { r with
    rejects := rejects, suspended := susp, commitPend := some a, scratch := if a.2.isEmpty then [] else r.scratch }

/-- A verify step's commit is pending: its path is not empty (R222, R225). -/
def Request.pending (r : Request) : Bool := match r.commitPend with | some c => !c.2.isEmpty | none => false

/-- Chunks of the committed step (R186, R195). -/
def State.chunksCommitted (s : State) (p : Nat) (cs : List (Nat × Nat × Nat × Nat)) : State :=
  cs.foldl (fun s c =>
    match (s.part p).req c.1 c.2.1 with
    | none => s
    | some r =>
      let n := c.2.2.2
      let s := s.growSequence p r n
      let r := { r with filled := r.filled + n }
      if r.filled < r.ntok then s.onPart p (fun x => x.setReq r)
      else (s.useEntry (partFn p) r.chan r.reqSeq).requestCommitted p { r with produced := r.produced + r.sent }) s

/-- Decode slots of the committed step (R186, R220). -/
def State.decodesCommitted (s : State) (p : Nat) (ds : List (Nat × Nat × Nat × Bool)) : State :=
  ds.foldl (fun s d =>
    match (s.part p).req d.1 d.2.2.1 with
    | none => s
    | some r =>
      let s := s.growSequence p r 1
      let r := { r with produced := r.produced + r.sent }
      if d.2.2.2 then s.verifyCommitted p r else s.requestCommitted p r) s

/-- RETAG of a SCRATCH page to KV (R156, R161, R222). -/
def State.retagKv (s : State) (row : Nat) : State :=
  s.setPte row (ptEntry 5 (s.pte row) (putFld (s.pte row) 4 3 Pte.kv))

/-- The accepted path's entries become part of the sequence (R222): by COPY as slots of its last page, with the SCRATCH pages freed,
and by REMAP as a new last page of each list. -/
def State.commitPath (s : State) (p : Nat) (q : Sequence) (path scratch : List Nat) : State :=
  let k := path.length
  let cap := ((s.part p).modelAt q.model).pageCap
  let n := q.counts.length
  if k ≤ q.room cap then
    (s.freePages scratch).onPart p (fun x => x.setSeq { q.grow cap k with scratch := [], pend := none })
  else
    (scratch.foldl State.retagKv s).onPart p (fun x => x.setSeq { q with
      len := q.len + k, counts := q.counts ++ [k], scratch := [], pend := none
      pages := q.pages.zipIdx.map (fun (l, t) => match scratch[t]? with
        | some row => l.take n ++ some row :: l.drop n
        | none => l) })

/-- Speculative acceptances committed in the prelude of the step, as its decision holds them, for a request or for the sequence of one
that has ended (R221, R222, R224). -/
def State.specsCommitted (s : State) (p : Nat) (ds : List (Nat × Nat × Nat × List Nat)) : State :=
  ds.foldl (fun s d =>
    match (s.part p).req d.2.1 d.2.2.1 with
    | some r =>
      if d.2.2.2.isEmpty then s.onPart p (fun x => x.setReq { r with commitPend := none })
      else
        let s := match (s.part p).seqOf r.ctx r.seqh with
          | some q => s.commitPath p q d.2.2.2 r.scratch
          | none => s
        s.onPart p (fun x => x.setReq { r with commitPend := none, scratch := [] })
    | none =>
      match (s.part p).seqs.find? (fun q => q.chan == d.2.1 && q.pend.map (·.1) == some d.2.2.1) with
      | none => s
      | some q =>
        if d.2.2.2.isEmpty then s.onPart p (fun x => x.setSeq { q with pend := none })
        else s.commitPath p q d.2.2.2 q.scratch) s

-- Pauses and scanned states.

/-- Pages of list `t` of a sequence that hold something: those with entries, and every page of a scanned state. -/
def Sequence.filledPages (q : Sequence) (triples t : Nat) : Nat := if t < triples then q.counts.length else (q.pages.getD t []).length

/-- The page lists of a sequence whose harvests have committed: harvested pages are held by the cold tier alone, and pages without
entries are given up (R187). -/
def Sequence.pausedPages (q : Sequence) (triples : Nat) : List (List (Option Nat)) :=
  q.pages.zipIdx.map (fun (l, t) => (l.take (q.filledPages triples t)).zipIdx.map (fun (o, i) =>
    if q.cold.any (fun c => c.1 == t && c.2.1 == i) then none else o))

/-- Harvests of the committed step: a PAUSING sequence is PAUSED, its Pan pages that no other sequence names are freed, and
its expiry tick is set; a resumed sequence's cold pages are given up (R187, R314). -/
def State.pausesCommitted (s : State) (p : Nat) (es : List (Nat × Nat × Nat × Nat)) : State :=
  es.foldl (fun s e =>
    let x := s.part p
    if e.1 = 3 then
      match x.seqByChan e.2.1 e.2.2.1 (fun q => q.st == .pausing && q.planned) with
      | none => s
      | some q =>
        let after := { q with
          st := .paused, planned := false, expiry := s.now + msTicks * q.ttl, work := []
          pages := q.pausedPages (x.modelAt q.model).triples }
        let gone := q.rows.filter (fun r => !after.rows.contains r)
        (s.dropRefs (gone ++ q.work.filterMap id)).onPart p (fun x => x.setSeq after)
    else if e.1 = 4 then
      match x.seqByChan e.2.1 e.2.2.1 (fun q => q.st == .active && !q.cold.isEmpty) with
      | none => s
      | some q => s.onPart p (fun x => x.setSeq { q with cold := [] })
    else s) s

/-- The roles of the two pages of a scanned state are exchanged, where the step's bind set named the work page through a WRITE slot; a
committed page that another sequence shares stays theirs (R151, R242). -/
def State.exchangeStates (s : State) (p : Nat) (q : Sequence) : State :=
  let x := s.part p
  let base := (x.modelAt q.model).triples
  q.work.zipIdx.foldl (fun s (w, k) =>
    match (s.part p).seqOf q.ctx q.seqh, w with
    | some q, some new =>
      if !x.plan.states.contains new then s
      else
        let old := ((q.pages.getD (base + k) []).getD 0 none)
        let shared := match old with | some r => decide (Pte.refcnt (s.pte r) > 1) | none => true
        let s := match old with | some r => if shared then s.dropRefs [r] else s | none => s
        s.onPart p (fun x => x.setSeq { q with
          pages := q.pages.set (base + k) [some new], work := q.work.set k (if shared then none else old) })
    | _, _ => s) s

/-- Scanned states of the sequences that the committed step served (R242). -/
def State.statesCommitted (s : State) (p : Nat) (d : Decision) : State :=
  let served := (d.decodes.map (fun e => (e.1, e.2.2.1)) ++ d.chunks.map (fun e => (e.1, e.2.1))).eraseDups
  served.foldl (fun s e =>
    match (s.part p).req e.1 e.2 with
    | none => s
    | some r => match (s.part p).seqOf r.ctx r.seqh with
      | some q => s.exchangeStates p q
      | none => s) s

/-- What the commit of a step does to the requests and sequences of its decision. -/
def State.requestsCommitted (s : State) (p : Nat) : State :=
  match (s.part p).decision with
  | none => s
  | some d =>
    (((((s.statesCommitted p d).specsCommitted p d.specs).chunksCommitted p d.chunks).decodesCommitted p d.decodes).pausesCommitted p
      d.events)

/-- The checkpoint harvested in the committed step's prelude replaces the older set, and its pages are CLEANed (R474). -/
def State.checkpointCommitted (s : State) (p : Nat) : State :=
  match (s.part p).pendCkpt with
  | none => s
  | some c =>
    let s := c.pages.foldl (fun s e => s.setPte e.1 (putBit (s.pte e.1) 9 false)) s
    s.onPart p (fun x => { x with pendCkpt := none, restoreStep := c.step, ckpts := lastN 2 (x.ckpts ++ [c]) })

end Sys2Proof.Machine
end

