-- ==== Sys2Proof/Machine/PartLog.lean ====
section
/-!
DEFINITION. Partition logs (R285, R286): items and records as bytes, writing a record to the ring, and reading one back.
-/
namespace Sys2Proof.Machine

namespace LogRec

/-- A path byte list with 0xFF after the last (R285). -/
def pathBytes (n : Nat) (path : List Nat) : Bytes := bytes ((path ++ List.replicate n 0xFF).take n)

/-- PATH items for the path bytes beyond the first 8. -/
def pathItems : Nat → List Nat → List LogItem
  | 0, _ => []
  | f + 1, rest => if rest.isEmpty then [] else (le 1 0x0B ++ pathBytes 15 rest) :: pathItems f (rest.drop 15)

def listItem (d : Decision) : LogItem :=
  bytes [1, d.model, d.list.length, d.bset, 0, 0, 0, 0] ++ fit 8 (bytes d.list)
def admitItem (a : Nat × Nat × Nat × Nat) : LogItem :=
  bytes [2, a.1, a.2.1, 0] ++ le 4 a.2.2.1 ++ le 8 a.2.2.2
def decodeItem (a : Nat × Nat × Nat × Bool) : LogItem :=
  bytes [3, a.1] ++ le 2 a.2.1 ++ le 4 a.2.2.1 ++ le 1 (b2n a.2.2.2) ++ zeros 7
def chunkItem (a : Nat × Nat × Nat × Nat) : LogItem :=
  bytes [4, a.1, 0, 0] ++ le 4 a.2.1 ++ le 4 a.2.2.1 ++ le 4 a.2.2.2
def eventItem (a : Nat × Nat × Nat × Nat) : LogItem :=
  bytes [5, a.1, a.2.1, 0] ++ le 4 a.2.2.1 ++ le 8 a.2.2.2
def specItems (a : Nat × Nat × Nat × List Nat) : List LogItem :=
  (bytes [6, a.1, a.2.2.2.length, a.2.1] ++ le 4 a.2.2.1 ++ pathBytes 8 a.2.2.2) :: pathItems 4 (a.2.2.2.drop 8)
def picItem (a : Nat × Nat × Nat) : LogItem := bytes [7, a.1, a.2.1, 0] ++ le 4 a.2.2 ++ zeros 8

/-- The items of a decision record (R196, R285). -/
def decisionItems (d : Decision) : List LogItem :=
  listItem d :: (d.admits.map admitItem ++ d.decodes.map decodeItem ++ d.chunks.map chunkItem ++ d.events.map eventItem
    ++ d.specs.flatMap specItems ++ d.pics.map picItem)

def inposItem (chan pos next : Nat) : LogItem := bytes [8, chan, 0, 0] ++ le 4 pos ++ le 8 next
def wmarkItem (chan wm : Nat) : LogItem := bytes [9, chan] ++ zeros 6 ++ le 8 wm
def restoreItem (step : Nat) : LogItem := bytes [10] ++ zeros 7 ++ le 8 step

/-- Item codes that a record of a kind may hold, with the event kinds of R285. -/
def itemOk (commit : Bool) (i : LogItem) : Bool :=
  let c := u8 i 0
  if commit then 8 ≤ c && c ≤ 10
  else (1 ≤ c && c ≤ 7 && (c != 5 || (1 ≤ u8 i 1 && u8 i 1 ≤ 7))) || c == 11

/-- Path bytes up to the first 0xFF. -/
def unpath (b : Bytes) : List Nat := (b.map (·.toNat)).takeWhile (· != 0xFF)

/-- One item added to a decision that is read back. -/
def addItem (d : Decision) (i : LogItem) : Decision :=
  match u8 i 0 with
  | 1 => { d with model := u8 i 1, list := (List.range (u8 i 2)).map (fun k => u8 i (8 + k)), bset := u8 i 3 }
  | 2 => { d with admits := d.admits ++ [(u8 i 1, u8 i 2, u32 i 4, u64 i 8)] }
  | 3 => { d with decodes := d.decodes ++ [(u8 i 1, u16 i 2, u32 i 4, (u8 i 8).testBit 0)] }
  | 4 => { d with chunks := d.chunks ++ [(u8 i 1, u32 i 4, u32 i 8, u32 i 12)] }
  | 5 => { d with events := d.events ++ [(u8 i 1, u8 i 2, u32 i 4, u64 i 8)] }
  | 6 => { d with specs := d.specs ++ [(u8 i 1, u8 i 3, u32 i 4, unpath (slice i 8 8))] }
  | 7 => { d with pics := d.pics ++ [(u8 i 1, u8 i 2, u32 i 4)] }
  | 11 => { d with specs := d.specs.dropLast ++ (d.specs.getLast?.map (fun e =>
      (e.1, e.2.1, e.2.2.1, e.2.2.2 ++ unpath (i.drop 1)))).toList }
  | _ => d

/-- The decision that a record's items spell. -/
def toDecision (step : Nat) (items : List LogItem) : Decision := items.foldl addItem { step := step }

/-- The bytes of a record (R285). -/
def encode (commit : Bool) (epoch step tick : Nat) (items : List LogItem) : Bytes :=
  let body := items.flatten
  bytes [if commit then 2 else 1, epoch % 2, 0, 0] ++ le 4 (32 + body.length) ++ le 8 step ++ le 8 tick
    ++ le 4 (Crypto.crc32c body) ++ zeros 4 ++ body

end LogRec

/-- Bytes of the partition log's ring. -/
def Ring.size (r : Ring) : Nat := r.pages * pageBytes

/-- Writes bytes to a log ring at a position counted from its setup, going round at its end. -/
def State.ringWrite (s : State) (key : Nat) (r : Ring) (pos : Nat) (b : Bytes) : State :=
  let at_ := pos % r.size
  let n := min b.length (r.size - at_)
  let s := s.coldStore key (coldAddr r.first + at_) (b.take n)
  if n < b.length then s.coldStore key (coldAddr r.first) (b.drop n) else s

/-- Reads bytes of a log ring. -/
def State.ringRead (s : State) (key : Option Nat) (r : Ring) (pos n : Nat) : Bytes :=
  (List.range n).map (fun i => s.coldByte key (coldAddr r.first + (pos + i) % r.size))

/-- Room for a record: the head must not reach the release position (R286). -/
def Part.logFits (x : Part) (n : Nat) : Bool := decide (x.plog.head + n < x.plog.rel + x.plog.size)

/-- Writes a record to the partition log, with its DDR4 acknowledgement (R193, R203, R285); none where it does not fit. -/
def State.plogAppend (s : State) (p : Nat) (commit : Bool) (step : Nat) (items : List LogItem) : Option State :=
  let x := s.part p
  let b := LogRec.encode commit (x.plog.head / max 1 x.plog.size) step s.now items
  match (s.tenant x.tenant).key with
  | none => none
  | some k =>
    if !x.logFits b.length then none
    else
      let r : PlogRec := { commit := commit, step := step, tick := s.now, pos := x.plog.head, items := items }
      some ((s.ringWrite k x.plog x.plog.head b).onPart p (fun x => { x with
        plog := { x.plog with head := x.plog.head + b.length }, recs := x.recs ++ [r] }))

/-- Judges the codewords of a range of a log ring (R277, R278): no data where one fails correction, which is reported. -/
def State.ringRangeOk (s : State) (r : Ring) (pos n : Nat) : Bool × State :=
  let at_ := pos % max 1 r.size
  let k := min n (r.size - at_)
  match s.coldJudge (coldAddr r.first + at_) k none with
  | (false, s) => (false, s)
  | (true, s) => s.coldJudge (coldAddr r.first) (n - k) none

/-- Reads bytes of the partition log's ring from the cold tier (R278). -/
def State.plogFetch (s : State) (p pos n : Nat) : Option Bytes × State :=
  let x := s.part p
  match s.ringRangeOk x.plog pos n with
  | (false, s) => (none, s)
  | (true, s) => (some (s.ringRead (s.tenant x.tenant).key x.plog pos n), s)

/-- The records of the log from a position on, by their headers (R285): position, length, TYPE and STEP. The scan ends at the head, at a
record whose EPOCH bit is not that of its pass, and at a header that cannot be read. The first argument bounds the number of records. -/
def State.scanLog (p : Nat) : Nat → State → Nat → List (Nat × Nat × Nat × Nat) × State
  | 0, s, _ => ([], s)
  | f + 1, s, pos =>
    let x := s.part p
    if x.plog.head ≤ pos then ([], s)
    else match s.plogFetch p pos 32 with
    | (none, s) => ([], s)
    | (some h, s) =>
      let n := u32 h 4
      if u8 h 1 % 2 ≠ pos / max 1 x.plog.size % 2 ∨ n < 32 ∨ n % 16 ≠ 0 then ([], s)
      else
        let (t, s) := State.scanLog p f s (pos + n)
        ((pos, n, u8 h 0, u64 h 8) :: t, s)

/-- The record of a step in the log: TYPE 1 the decision, 2 the commit (R285). Position and length; none where the scan ends before
it. -/
def State.logged (s : State) (p typ step : Nat) : Option (Nat × Nat) × State :=
  let x := s.part p
  let (l, s) := State.scanLog p ((x.plog.head - x.plog.rel) / 32 + 1) s x.plog.rel
  ((l.find? (fun e => e.2.2.1 == typ && e.2.2.2 == step)).map (fun e => (e.1, e.2.1)), s)

/-- Reads the items of a record back from the ring: none where its CRC or an item is bad, or its memory fails correction (R278, R285). -/
def State.plogRead (s : State) (p pos n : Nat) : Option (List LogItem) × State :=
  match s.plogFetch p pos n with
  | (none, s) => (none, s)
  | (some b, s) =>
    let body := b.drop 32
    let items := (List.range (body.length / 16)).map (fun i => slice body (16 * i) 16)
    if u32 b 24 != Crypto.crc32c body || items.any (fun i => !LogRec.itemOk (u8 b 0 == 2) i) then (none, s) else (some items, s)

/-- A bad record ends the log and fails the partition (R285, R467). -/
def State.logCorrupt (s : State) (p pos : Nat) : State :=
  let x := s.part p
  let at_ := pos % max 1 x.plog.size
  let page := x.plog.first + at_ / pageBytes
  (s.raise 7 0 4 3 p (locDdr (coldChan page) (coldInChan page) 0) at_).failPart p

/-- Dome firmware has written a decision record of the step that is still in the log (R196). -/
def Part.recorded (x : Part) (step : Nat) : Bool := x.recs.any (fun r => !r.commit && r.step == step)

/-- The items of a step's decision record, read back for a release; a record that cannot be found or read fails the partition (R196,
R285). -/
def State.readDecision (s : State) (p step : Nat) : Option (List LogItem) × State :=
  match s.logged p 1 step with
  | (none, s) =>
    let at_ := ((s.part p).recs.find? (fun r => !r.commit && r.step == step)).map (·.pos)
    (none, s.logCorrupt p (at_.getD (s.part p).plog.rel))
  | (some (pos, n), s) =>
    match s.plogRead p pos n with
    | (none, s) => (none, s.logCorrupt p pos)
    | (some items, s) => (some items, s)

end Sys2Proof.Machine
end

