-- ==== Sys2Proof/Machine/Sequencer.lean ====
section
/-!
DEFINITION. Step control and bindings (R79, R126, R149, R197 to R203, R207, R492): release, commit and abort of a step,
the step report, the step count, bind writes and the deadline register.
-/
namespace Sys2Proof.Machine

/-- Bases of the PTM and SEQ windows in the Dome memory map (R453). -/
def ptmBase (p : Nat) : Nat := 0x100030000 + 0x40 * p
def seqBase (p : Nat) : Nat := 0x100030400 + 0x40 * p

/-- Buffers the low half of a 64-bit pair (R5). -/
def State.bufLow (s : State) (key : Nat) (v : Word) : State := { s with lowBuf := Sp.set none s.lowBuf key (some v) }

/-- A write to the high half commits both halves: with the buffered low half, or with the current one (R5). -/
def State.commitHigh (s : State) (key cur : Nat) (v : Word) : Nat × State :=
  let lo := match Sp.get none s.lowBuf key with | some w => w.toNat | none => cur % 2 ^ 32
  (lo + 2 ^ 32 * v.toNat, { s with lowBuf := Sp.set none s.lowBuf key none })

/-- Handles that SEQ_LIST names for a release of `lcnt` entries (R201). -/
def Part.listHandles (x : Part) (lcnt : Nat) : List Nat := (List.range lcnt).map (fun i => fld x.list (8 * i) 8)

/-- Entries of a set over the cells of the partition and the given slots: slot, accepted types, entry. -/
def State.boundEntries (s : State) (x : Part) (set : Nat) (uses : List (Nat × Nat)) : List (Nat × Nat × Bnd.Entry) :=
  uses.flatMap (fun (sl, m) => x.cells.map (fun n => (sl, m, s.bindEntry n set sl)))

/-- One row is named by two WRITE prelude slots, by two WRITE body slots, or a SCRATCH row by more than one slot
(R149). A slot that names the row in several cells counts once. -/
def bindAlias (s : State) (preslots : Nat) (es : List (Nat × Nat × Bnd.Entry)) : Bool :=
  let pages := es.filter (fun e => Bnd.typ e.2.2 == 1)
  pages.any (fun e =>
    let row := Bnd.row e.2.2
    let same := pages.filter (fun o => Bnd.row o.2.2 == row && o.1 != e.1)
    let wr (o : Nat × Nat × Bnd.Entry) := Bnd.mode o.2.2
    (wr e && same.any (fun o => wr o && (decide (o.1 < preslots) == decide (e.1 < preslots))))
      || (Pte.kind (s.pte row) == Pte.scratch && !same.isEmpty))

/-- The first check of a release that fails, as ERR reports it, or 0 (R202). -/
def releaseErr (s : State) (x : Part) (lcnt bset : Nat) : Nat :=
  if lcnt = 0 ∨ 8 < lcnt then 6
  else
    let hs := x.listHandles lcnt
    let plates := hs.filterMap x.plate
    if plates.length < hs.length then 1
    else
      let p0 := plates.headD {}
      if plates.any (fun q => q.family != p0.family || q.preslots != p0.preslots) then 2
      else
        let es := s.boundEntries x bset (listUses plates)
        if es.any (fun e => !Bnd.fieldsOk e.2.2) then 5
        else if es.any (fun e => !e.2.1.testBit (Bnd.typ e.2.2)) then 4
        else if bindAlias s p0.preslots es then 3
        else 0

/-- Discards a SEQ_CTL write (R202). -/
def State.ctlIgn (s : State) (p : Nat) : State := s.onPart p (fun x => { x with ctlIgn := true })

/-- IDLE clears: a partition in P1 or P2 returns to the controller's point, one in P3 has its blocks powered on
(R358). -/
def State.clearIdle (s : State) (p : Nat) : State :=
  let x := s.part p
  let w := { x.pw with idle := false, idleAt := none }
  match x.pw.st with
  | .p0 => s.setPart p { x with pw := w }
  | .p1 | .p2 =>
    let s := s.setPart p { x with pw := { w with st := .p0 } }
    -- engines are idle after their block leaves P2 (R120)
    if x.pw.st == .p2 then x.cells.foldl (fun s n => s.onCell n (fun c => { c with lastTile := [] })) s else s
  | .p3 =>
    let s := s.setPart p { x with pw := { w with waking := true } }
    x.blocks.foldl (fun s b => s.onBlock b (fun k => { k with on := true })) s

/-- Reads bytes of a loaded plate's image from its PLATE pages, page by page with their check bits (R78, R136, R137): none where an
error delivers no data. The first argument bounds the number of pages. -/
def State.plateFetch : Nat → State → Plate → Nat → Nat → Option Bytes × State
  | 0, s, _, _, _ => (some [], s)
  | k + 1, s, pl, off, len =>
    if len = 0 then (some [], s)
    else
      let n := min len (pageBytes - off % pageBytes)
      match s.panFetch (pl.pages.getD (off / pageBytes) 0 * pageBytes + off % pageBytes) n with
      | (none, s) => (none, s)
      | (some b, s) =>
        match State.plateFetch k s pl (off + n) (len - n) with
        | (none, s) => (none, s)
        | (some c, s) => (some (b ++ c), s)

/-- The stream of a pinned plate goes into its dedicated buffer (R80). A list that holds other entries beside a pinned plate breaks
R80, which names no error for it: nothing enters the buffer (log 138). -/
def State.loadPinned (s : State) (p : Nat) (hs : List Nat) : State :=
  match hs with
  | [h] =>
    match (s.part p).plate h with
    | some pl =>
      if pl.pinned then
        let (b, s) := State.plateFetch 2 s pl pl.segOff pl.segBytes
        s.onPart p (fun x => { x with pinBuf := b.getD [] })
      else s
    | none => s
  | _ => s

/-- A release whose checks pass: the deadline is armed and issue starts with the set (R126, R202). -/
def State.startStep (s : State) (p : Nat) (hs : List Nat) (bset : Nat) : State :=
  let x := s.part p
  let d := x.decision.getD {}
  let rep : Report := {
    tRel := s.now, beats := x.cells.map (fun n => (n, (s.cell n).beats)), deadline := x.dl
    replay := match x.lastReleased with | some m => decide (x.step ≤ m) | none => false
    repair := x.rep.repair, clamp := s.power.clampAt.isSome
    nDec := d.decodes.length, nPre := d.chunks.length, model := d.model }
  let s := s.setPart p { x with
    st := .released, armed := x.dl != 0, bset := bset, handles := hs, dlMissed := false
    listPos := 0, segPos := 0, idleLeft := 0, prefetch := [], fetchList := 0, fetchPos := 0, pinBuf := []
    issued := false, segNo := 0, seqq := [], barriers := [], endWait := false, flags := {}, rep := rep
    outTaken := [], quiet := 0, recover := 0
    lastReleased := some (match x.lastReleased with | some m => max m x.step | none => x.step)
    reqs := x.reqs.map (fun r => { r with missed := false, sent := 0 }) }
  let s := s.loadPinned p hs
  if x.pw.st == .p0 then s else s.clearIdle p

/-- RELEASE: from BOUNDARY, the checks of R202 and the start of the step, or ERR; a failed partition or one under scrub
releases no step (R436, R473). -/
def State.release (s : State) (p lcnt bset : Nat) : State :=
  let x := s.part p
  if x.st != .boundary || !x.present || x.failed || s.underScrub p then s.ctlIgn p
  else
    let e := releaseErr s x lcnt bset
    if e = 0 then s.startStep p (x.listHandles lcnt) bset else s.onPart p (fun x => { x with err := e })

/-- RELEASE (R202). -/
def execRelease (p lcnt bset : Nat) (s : State) : Out := .next (s.release p lcnt (bset % 2))

/-- Beats of each cell of the partition between release and completion, as the step report takes them (R207). -/
def reportBeats (x : Part) : List (Nat × Nat) := x.cells.map (fun n => (n, Sp.get 0 x.rep.beats n))

/-- The 64-byte payload of the step report (R207). `rep.beats` holds the beats between release and completion. -/
def stepReport (p : Nat) (x : Part) : Bytes :=
  let bs := reportBeats x
  let t := max 1 (x.doneTick - x.rep.tRel)
  let sum := bs.foldl (fun a b => a + b.2) 0
  let least := bs.foldl (fun (a : Nat × Nat) b => if b.2 < a.2 then b else a) (bs.headD (0, 0))
  let rf := b2n x.rep.missed + 2 * b2n x.rep.replay + 4 * b2n x.rep.repair + 8 * b2n x.rep.trunc + 16 * b2n x.rep.clamp
  let plate0 := match x.handles with | h :: _ => (match x.plate h with | some pl => pl.plateId | none => 0) | [] => 0
  le 8 x.step ++ le 8 x.rep.tRel ++ le 8 x.doneTick ++ le 8 plate0
    ++ le 4 (if x.rep.missed then x.doneTick - x.rep.deadline else 0)
    ++ le 2 (sat16 (100 * sum / (max 1 bs.length * t))) ++ le 2 (sat16 (100 * least.2 / t))
    ++ le 2 (x.relCol least.1 + 32 * x.relRow least.1) ++ le 1 p ++ le 1 rf ++ le 1 x.flags.bits
    ++ le 1 x.handles.length ++ le 2 x.rep.nDec ++ le 2 x.rep.nPre ++ le 2 (sat16 x.rep.nOut) ++ le 2 (sat16 x.rep.nLate)
    ++ le 1 x.rep.model ++ zeros 9

/-- Entries taken by the STRINs of a step that commits are consumed (R284). -/
def State.consumeTaken (s : State) (f : Nat) : State :=
  s.onFn f (fun x => { x with inch := x.inch.map (fun e =>
    (e.1, { e.2 with entries := e.2.entries.map (fun t => if t.taken then { t with used := true, taken := false } else t) })) })

/-- The input queues of a stopped partition are reset to the consumed position (R284). -/
def State.resetTaken (s : State) (f : Nat) : State :=
  s.onFn f (fun x => { x with inch := x.inch.map (fun e =>
    (e.1, { e.2 with entries := e.2.entries.map (fun t => { t with taken := false }) })) })

/-- Unloads a plate: its handle and its pages (R108). -/
def State.unloadPlate (s : State) (p h : Nat) : State :=
  match (s.part p).plate h with
  | none => s
  | some pl => ((s.freePages pl.pages).dropImages p pl.pages).onPart p (fun x => { x with plates := Sp.set none x.plates h none })

/-- A decision record names a plate handle in its step list (R285). -/
def PlogRec.names (r : PlogRec) (h : Nat) : Bool :=
  !r.commit && r.items.any (fun i => u8 i 0 == 1 && (List.range (u8 i 2)).any (fun k => u8 i (8 + k) == h))

/-- A plate handle that a released step names, or a written decision record of a step that has not committed: the record of the step at
hand, one that a standby holds, or one that a rebuild has still to release; a pinned plate is bound to the released step alone (R80,
R108). -/
def Part.plateBusy (x : Part) (h : Nat) : Bool :=
  let pinned : Bool := match x.plate h with | some pl => pl.pinned | none => false
  (x.st == .released && x.handles.contains h)
    || (!pinned && ((match x.decision with | some d => d.list.contains h | none => false)
      || x.held.any (fun d => d.list.contains h)
      || x.recs.any (fun r => decide (x.step ≤ r.step) && r.names h)))

/-- Unloads that waited for the commit of the last step that names their handle, or for the stop of the pinned plate, take
effect and are answered (R108). -/
def State.runUnloads (s : State) (p : Nat) : State :=
  let x := s.part p
  (x.unloads.filter (fun u => !x.plateBusy u.1)).foldl (fun s u =>
    ((s.unloadPlate p u.1).onPart p (fun x => { x with unloads := x.unloads.filter (· ≠ u) })).respond (partFn p) u.2 0x0405 0 []) s

/-- The step report leaves with the next number of channel 0, and with the number it had when its step is replayed
(R207, R288). -/
def State.sendReport (s : State) (p step : Nat) (payload : Bytes) : State :=
  let f := partFn p
  match Sp.get 0 (s.part p).reports step with
  | 0 =>
    let n := ((s.fn f).out 0).next
    (s.onPart p (fun x => { x with reports := Sp.set 0 x.reports step (n + 1) })).sendOut f 9 0 0 0 payload
  | k + 1 => s.push f { typ := 9, seq := k, payload := payload }

/-- Sensor frames that the step consumes after their latency deadline: one DEADLINE_MISS for each entry, with the number of late
frames (R328). -/
def State.sensorMisses (s : State) (p : Nat) : State :=
  (List.range 32).foldl (fun s i => match s.stream i with
    | some e =>
      let late := ((s.fn (partFn p)).in_ e.chan).entries.filter (fun t => t.taken && t.stream == some i && decide (t.tick + usTicks * e.latUs < s.now))
      if e.kind = 2 ∧ e.part = p ∧ e.latUs ≠ 0 ∧ late ≠ [] then s.raiseMiss p 4 6 i late.length else s
    | none => s) s

/-- The step of the partition commits: SEQ_STEP + 1, the step report with the flags, which clear, consumed inputs, the requests of its
decision, deferred unloads; firmware on trial sees one more committed step (R46, R186, R202, R207, R284, R445, R475). -/
def State.commitStep (s : State) (p : Nat) : State :=
  let s := s.requestsCommitted p
  let s := s.checkpointCommitted p
  let x := s.part p
  let pl := stepReport p x
  let s := s.setPart p { x with
    step := wrap64 (x.step + 1), tb := s.now, stops := [], commitRec := false, bdone := false, bopen := false
    plan := {}, flags := {}
    rebuildTo := match x.rebuildTo with | some n => (if x.step < n then some n else none) | none => none
    decision := none, lastModel := some x.rep.model, rep := { x.rep with repair := false } }
  let s := { s with fw := { s.fw with waiting := s.fw.waiting.filter (· ≠ p) } }
  ((((s.sensorMisses p).consumeTaken (partFn p)).commitHarvests p).sendReport p x.step pl).runUnloads p

/-- COMMIT: from COMPLETE (R202). After the presence contacts open no further step commits (R353). -/
def execCommit (p : Nat) (s : State) : Out :=
  if s.bru.halted then .next s
  else if (s.part p).st == .complete then
    .next ((s.onPart p (fun x => { x with st := .boundary })).commitStep p)
  else .next (s.ctlIgn p)

/-- Clears the queues, segment buffers, event channels and grants of the partition's cells (R492). -/
def State.clearCells (s : State) (x : Part) : State :=
  x.cells.foldl (fun s n => s.onCell n (fun c => { c with
    segBuf := [], queues := [], ops := [], tokens := [], grants := [] })) s

/-- ABORT: started operations are ended and transfers drained; queues, tokens and barriers clear; the input queues are
reset; the state returns to BOUNDARY (R202, R492). -/
def State.abort (s : State) (p : Nat) : State :=
  let x := s.part p
  let s := s.clearCells x
  let s := s.setPart p { x with
    st := .boundary, barriers := [], seqq := [], endWait := false, trk := 0, trkDdr := 0, prefetch := [], quiet := 0
    outTaken := [], issued := false, dl := 0, armed := false }
  let s := { s with fw := { s.fw with waiting := s.fw.waiting.filter (· ≠ p) } }
  ((s.resetTaken (partFn p)).dropHarvests p).runUnloads p

def execAbort (p : Nat) (s : State) : Out :=
  .next (if (s.part p).st == .stopped then s.abort p else s.ctlIgn p)

/-- SEQ_STEP_WRITE: in BOUNDARY a write restores the committed step count, as a 64-bit pair (R5, R201). -/
def execSeqStepWrite (p : Nat) (hi : Bool) (v : Word) (s : State) : Out :=
  let x := s.part p
  let key := seqBase p + 0x10
  if x.st != .boundary then .next (s.ctlIgn p)
  else if hi then
    let (n, s) := s.commitHigh key x.step v
    .next (s.onPart p (fun x => { x with step := n }))
  else .next (s.bufLow key v)

/-- The 32-byte entry that SEQ_BW_E0 to E7 hold (R201). -/
def Part.bwEntry (x : Part) : Bnd.Entry :=
  BitVec.ofNat 256 ((List.range 8).foldl (fun a i => a + (Sp.get 0 x.bwE i).toNat * 2 ^ (32 * i)) 0)

/-- BIND_WRITE: a write to SEQ_BW_E3 writes the whole entry into the named slot and set of every cell of the rectangle;
into the set of a released step it is discarded with BW_IGN (R201, R202). -/
def execBindWrite (p : Nat) (v : Word) (s : State) : Out :=
  let x := s.part p
  let x := { x with bwE := Sp.set 0 x.bwE 3 v }
  let slot := fld x.bwSlot 0 16
  let set := fld x.bwSlot 16 1
  if x.st == .released && set == x.bset then .next (s.setPart p { x with bwIgn := true })
  else
    let e := x.bwEntry
    let w := x.bwCells
    let cells := x.cells.filter (fun n =>
      decide (fld w 0 5 ≤ x.relRow n) && decide (x.relRow n ≤ fld w 5 5)
        && decide (fld w 10 5 ≤ x.relCol n) && decide (x.relCol n ≤ fld w 15 5))
    let s := s.setPart p { x with bwBusy := true }
    .next (s.setMem (fun m => { m with
      bind := cells.foldl (fun b n => Sp.set 0 b ((2 * n + set) * 65536 + slot) e) m.bind }))

/-- BIND_WRITE_END: BW_BUSY clears (R201). -/
def execBindWriteEnd (p : Nat) (s : State) : Out := .next (s.onPart p (fun x => { x with bwBusy := false }))

/-- PTM_DL_WRITE: the step deadline, as a 64-bit pair; while a step is released the write is discarded and DL_WR_IGN is
set (R5, R126). -/
def execPtmDlWrite (p : Nat) (hi : Bool) (v : Word) (s : State) : Out :=
  let x := s.part p
  let key := ptmBase p + 8
  if x.st == .released then .next (s.ptmFlag p 4)
  else if hi then
    let (n, s) := s.commitHigh key x.dl v
    .next (s.onPart p (fun x => { x with dl := n }))
  else .next (s.bufLow key v)

end Sys2Proof.Machine
end

