-- ==== Sys2Proof/Machine/Placement.lean ====
section
/-!
DEFINITION. Where Dome firmware places pages (R162, R165, R187, R194, R222, R223, R242): the serving Pans, what a request needs of them,
and the allocation of key/value, state, draft and work pages. Which free page and which cold page the firmware takes is its own
choice: free values (log 17).
-/
namespace Sys2Proof.Machine

/-- An event enters the next decision record (R196). -/
def State.event (s : State) (p kind ch num arg : Nat) : State :=
  s.onPart p (fun x => { x with evts := x.evts ++ [(kind, ch, num, arg)] })

/-- Rows of the fixed slots that the loaded plates of a partition name (R162). -/
def Part.fixedRows (x : Part) : List Nat :=
  x.plates.flatMap (fun e => match e.2 with
    | some pl => pl.directs.map (fun d => pageOf (x.cellAt d.1 d.2.1) (d.2.2 / 32) (d.2.2 % 32))
    | none => [])

/-- FREE rows of a Pan that no loaded plate of the partition names as a fixed slot. -/
def State.freeInPan (s : State) (p pan : Nat) : List Nat :=
  let fixed := (s.part p).fixedRows
  ((List.range 32).map (fun i => 32 * pan + i)).filter (fun r => Pte.state (s.pte r) == Pte.free && !fixed.contains r)

/-- ALLOC of a page in a Pan for a table of Dome firmware that names it: REF_INC follows, and a SCRATCH page has REFCNT 1 from the
start (R151, R154, R161): the row taken. -/
def State.allocIn (s : State) (p pan fmt kind ctx : Nat) : Option Nat × State :=
  let (i, s) := s.draw
  let l := s.freeInPan p pan
  match l[i % max 1 l.length]? with
  | none => (none, s)
  | some row => (some row, s.setPte row (Pte.make fmt kind Pte.live p ctx 1 (Pte.gen (s.pte row)) 0))

/-- ALLOC of a page for each Pan of a list, as far as free rows go. -/
def State.allocEach (s : State) (p fmt kind ctx : Nat) (pans : List Nat) : List (Option Nat) × State :=
  pans.foldl (fun (a : List (Option Nat) × State) pan =>
    let (r, s) := a.2.allocIn p pan fmt kind ctx
    (a.1 ++ [r], s)) ([], s)

/-- Cold pages that some table of the tenant's partitions names. -/
def State.coldUsed (s : State) (t : Nat) : List Nat :=
  (List.range 16).flatMap (fun p =>
    let x := s.part p
    if x.present && x.tenant == t then
      x.seqs.flatMap Sequence.coldPages ++ x.ckpts.flatMap (fun c => c.pages.map (·.2))
        ++ (match x.pendCkpt with | some c => c.pages.map (·.2) | none => [])
        ++ (match x.snapshot with | some (c, _) => c.pages.map (·.2) | none => [])
    else [])

/-- Log rings, images and video storage of a tenant: first page and count (R274, R282, R285). -/
def State.storage (s : State) (t : Nat) : List (Nat × Nat) :=
  (List.range 16).flatMap (fun p =>
    let x := s.part p
    if x.present && x.tenant == t then
      (x.plog.first, x.plog.pages) :: ((s.fn (partFn p)).inch.filterMap (fun e =>
        if e.2.configured then some (e.2.ring.first, e.2.ring.pages) else none)) ++ x.imgCold.map (fun e => (e.2, 1))
    else [])
  ++ (List.range 32).flatMap (fun i =>
    match s.vctx (i / 8) (i % 8) with
    | some v => if (s.part v.part).tenant = t then Vid.ranges v.params else []
    | none => [])

/-- The pages of a tenant's SHARED ranges (R274). -/
def Tenant.sharedPages (t : Tenant) : List Nat :=
  (List.range 16).flatMap (fun i => match Sp.get none t.ranges i with
    | some (a, n) => (List.range n).map (a + ·)
    | none => [])

/-- Free cold pages of a tenant: inside its SHARED ranges, or outside them (R272 to R274). -/
def State.coldFree (s : State) (t : Nat) (shared : Bool) : List Nat :=
  let used := s.coldUsed t
  let held := s.storage t
  let all := if shared then (s.tenant t).sharedPages
    else (List.range (2 ^ 21)).filter (fun c => s.tenantPage t c && !(s.tenant t).shares c)
  all.filter (fun c => !used.contains c && !held.any (fun u => decide (u.1 ≤ c) && decide (c < u.1 + u.2)))

/-- `n` free cold pages, or none when there are fewer. -/
def State.pickCold (s : State) (t : Nat) (shared : Bool) (n : Nat) : Option (List Nat) × State :=
  if n = 0 then (some [], s)
  else
    let (i, s) := s.draw
    let l := s.coldFree t shared
    if l.length < n then (none, s) else (some ((l.rotateLeft (i % l.length)).take n), s)

-- The Pans of a sequence.

/-- Pan numbers of the partition's Pans. -/
def Part.panNo (x : Part) (i : Nat) : Nat := 4 * x.cells.getD (i / 4) 0 + i % 4

/-- The sequence a request continues or makes. -/
def Part.sequenceOf (x : Part) (r : Request) : Sequence :=
  (x.seqOf r.ctx r.seqh).getD { ctx := r.ctx, seqh := r.seqh, chan := r.chan, model := r.model }

/-- The serving Pan of each (layer, KV head) of a request's sequence: the Pan of the pages that it has there, which a fork shares with
its parent, and otherwise the firmware's choice (R165, log 17). -/
def Part.serving (x : Part) (p : Nat) (r : Request) : List Nat :=
  let m := x.modelAt r.model
  let q := x.sequenceOf r
  (List.range m.triples).map (fun t =>
    match (q.pages.getD t []).findSome? id with
    | some row => pagePanNo row
    | none => x.panNo (Config.servingPan p r.model r.ctx r.seqh (t / max 1 m.kvheads) (t % max 1 m.kvheads) % (4 * x.cells.length)))

/-- The Pan of each scanned state of a request's sequence (R162, log 148). -/
def Part.statePans (x : Part) (p : Nat) (r : Request) : List Nat :=
  (Config.statePans p r.model r.ctx r.seqh).map (fun i => x.panNo (i % (4 * x.cells.length)))

-- Capacity (R167, R191, R194, R223).

/-- The tree shape of a request's sampling profile, 0xFF for none (R208, R217). -/
def Part.treeOf (x : Part) (r : Request) : Nat :=
  match Sp.get none (x.modelAt r.model).profiles r.sprof with | some b => u8 b 0x18 | none => 0xFF

/-- The request may speculate: its SPEC flag is set and its profile names a tree (R223, R225). -/
def Part.speculator (x : Part) (r : Request) : Bool := r.spec && x.treeOf r != 0xFF

/-- Entries that a request may come to hold: min(length + NTOK + MAXTOK, MAXCTX) (R194). -/
def Part.reach (x : Part) (r : Request) (len : Nat) : Nat :=
  min (len + r.ntok + (if r.prefillOnly then 0 else r.maxtok)) (x.modelAt r.model).maxctx

/-- Entries that a KV page is counted as holding (R167, R223). -/
def Part.pageEntries (x : Part) (r : Request) : Nat :=
  max 1 ((x.modelAt r.model).pageCap - (if x.speculator r then 63 else 0))

/-- KV pages of each triple of a request. -/
def Part.kvPages (x : Part) (r : Request) (len : Nat) : Nat := (x.reach r len + x.pageEntries r - 1) / x.pageEntries r

/-- Pages of each triple of a request: KV pages, and two SCRATCH pages where it may speculate (R194, R223). -/
def Part.perTriple (x : Part) (r : Request) (len : Nat) : Nat := x.kvPages r len + (if x.speculator r then 2 else 0)

/-- Pages of a list that lie in a Pan. -/
def inPan (pan : Nat) (rows : List Nat) : Nat := (rows.filter (fun r => pagePanNo r == pan)).length

/-- KV and SCRATCH pages that a request's sequence holds. -/
def Part.heldRows (x : Part) (r : Request) : List Nat :=
  ((x.sequenceOf r).pages.take (x.modelAt r.model).triples).flatMap (fun l => l.filterMap id) ++ r.scratch

/-- Pages that admitted requests have reserved in a Pan and do not hold yet. -/
def State.outstanding (s : State) (p pan : Nat) : Nat :=
  let x := s.part p
  x.reqs.foldl (fun a r =>
    if r.st == .queued then a
    else a + (r.reserved * ((x.serving p r).filter (· == pan)).length - inPan pan (x.heldRows r))) 0

/-- Pages of a Pan that sequences of the model release by the harvests of this prelude, beside the sequence that a request continues
(R187, R194, R224). -/
def State.releasable (s : State) (x : Part) (r : Request) (pan : Nat) : Nat :=
  inPan pan ((x.seqs.filter (fun q => q.st == .pausing && q.model == r.model && q.pend.isNone
      && !(q.ctx == r.ctx && q.seqh == r.seqh))).flatMap (fun q =>
    q.rows.filter (fun w => decide (Pte.refcnt (s.pte w) ≤ 1))))

/-- KV pages reserved against a model's budget (R194). -/
def Part.reservedPages (x : Part) (m : Nat) : Nat :=
  x.reqs.foldl (fun a r => if r.model = m ∧ r.st ≠ .queued then a + r.reserved * (x.modelAt m).triples else a) 0

/-- Pages of a Pan that the step which admits a request needs before its release: those its floods go to, and those of its scanned
states (R162, R189, R242). -/
def Part.neededNow (x : Part) (p : Nat) (r : Request) (pan : Nat) : Nat :=
  let q := x.sequenceOf r
  let pans := x.serving p r ++ x.statePans p r
  let floods := (pans.zip q.pages).foldl (fun a e => if e.1 = pan then a + (e.2.filter Option.isNone).length else a) 0
  let states := ((x.statePans p r).filter (· == pan)).length
  floods + (if q.pages.isEmpty then 2 * states else states - inPan pan (q.work.filterMap id))

/-- A QUEUED request fits (R194). -/
def State.requestFits (s : State) (p : Nat) (r : Request) : Bool :=
  let x := s.part p
  let m := x.modelAt r.model
  let q := x.sequenceOf r
  let n := x.perTriple r q.len
  let pans := x.serving p r
  let active := (x.reqs.filter (fun o => o.model == r.model && (o.st == .prefill || o.st == .decode))).length
  decide (active + 1 ≤ m.decB.getLastD 0)
    && decide (x.reservedPages r.model + n * pans.length ≤ m.kvbud)
    && (pans ++ x.statePans p r).eraseDups.all (fun pan =>
        decide (n * (pans.filter (· == pan)).length + s.outstanding p pan
          ≤ (s.freeInPan p pan).length + s.releasable x r pan + inPan pan (x.heldRows r))
        && decide (x.neededNow p r pan ≤ (s.freeInPan p pan).length))

-- Pages of a request's sequence.

/-- The page lists of a sequence that is made: none yet for its triples, and one of each scanned state (R187, R242). -/
def State.makeLists (s : State) (p : Nat) (r : Request) : State :=
  let x := s.part p
  let q := x.sequenceOf r
  if !q.pages.isEmpty then s
  else
    let (rows, s) := s.allocEach p 0 Pte.stateKind r.ctx (x.statePans p r)
    s.onPart p (fun x => x.setSeq { q with
      pages := List.replicate (x.modelAt r.model).triples [] ++ rows.map (fun o => [o])
      work := rows.map (fun _ => none) })

/-- Pages of a request's sequence, as far as free rows go: KV pages in its serving Pans up to its reservation (R187). -/
def State.fillPages (s : State) (p : Nat) (r : Request) : State :=
  let x := s.part p
  let m := x.modelAt r.model
  let kv := r.reserved - (if x.speculator r then 2 else 0)
  (x.serving p r).zipIdx.foldl (fun s (pan, t) =>
    let have_ := (((s.part p).sequenceOf r).pages.getD t []).length
    (List.range (kv - have_)).foldl (fun s _ =>
      match s.allocIn p pan m.kvfmt Pte.kv r.ctx with
      | (none, s) => s
      | (some row, s) => s.onPart p (fun x =>
          let q := x.sequenceOf r
          x.setSeq { q with pages := q.pages.set t (q.pages.getD t [] ++ [some row]) })) s) s

/-- Work pages of a sequence's scanned states, in the Pans of their committed pages (R162, R242). -/
def State.workPages (s : State) (p : Nat) (r : Request) : State :=
  let x := s.part p
  let base := (x.modelAt r.model).triples
  (x.sequenceOf r).work.zipIdx.foldl (fun s (w, k) =>
    let q := (s.part p).sequenceOf r
    match w, (q.pages.getD (base + k) []).getD 0 none with
    | none, some row =>
      (match s.allocIn p (pagePanNo row) (Pte.fmt (s.pte row)) Pte.stateKind r.ctx with
      | (none, s) => s
      | (some new, s) => s.onPart p (fun x => x.setSeq { q with work := q.work.set k (some new) }))
    | _, _ => s) s

/-- Floods of a resumed sequence: every page that the cold tier alone holds takes a new page of its serving Pan, and the flood enters the
prelude (R187, R189, R314). -/
def State.floodPages (s : State) (p : Nat) (r : Request) : State :=
  let x := s.part p
  let pans := x.serving p r ++ x.statePans p r
  let base := (x.modelAt r.model).triples
  (x.sequenceOf r).cold.foldl (fun s c =>
    let q := (s.part p).sequenceOf r
    if (q.pages.getD c.1 []).getD c.2.1 (some 0) != none then s
    else
      let fmt := if c.1 < base then (x.modelAt r.model).kvfmt else 0
      match s.allocIn p (pans.getD c.1 0) fmt (if c.1 < base then Pte.kv else Pte.stateKind) r.ctx with
      | (none, s) => s
      | (some row, s) => s.onPart p (fun x =>
          { x.setSeq { q with pages := q.pages.set c.1 ((q.pages.getD c.1 []).set c.2.1 (some row)) } with
            plan := { x.plan with floods := x.plan.floods ++ [(row, c.2.2, r.ctx)] } })) s

/-- SCRATCH pages for a request that speculates in the step: one in the serving Pan of each triple (R161, R162, R219). -/
def State.scratchPages (s : State) (p : Nat) (r : Request) : State :=
  let x := s.part p
  if !r.scratch.isEmpty then s
  else
    let (rows, s) := s.allocEach p (x.modelAt r.model).kvfmt Pte.scratch r.ctx (x.serving p r)
    s.onPart p (fun x => x.setReq { r with scratch := rows.filterMap id })

/-- DATA pages of the fixed slots that the plates of a step list name: a FREE one is allocated (R162). -/
def State.placeData (s : State) (p : Nat) (list : List Nat) : State :=
  let x := s.part p
  (list.filterMap x.plate).foldl (fun s pl => pl.directs.foldl (fun s e =>
    let row := pageOf (x.cellAt e.1 e.2.1) (e.2.2 / 32) (e.2.2 % 32)
    (ptOp s 1 row (Pte.make 0 Pte.data Pte.live p 0 0 0 0)).2) s) s

end Sys2Proof.Machine
end

