-- ==== Sys2Proof/Machine/Binding.lean ====
section
/-!
DEFINITION. The preludes and the bind set of a step (R149, R150, R153, R161, R187, R189, R191, R196 to R200, R219, R222, R242, R263,
R265): which pages and cold pages the step's work concerns, and the entries that Dome firmware binds for them. Which of a cell's slots
serves which of them is the convention of the family's plates with the firmware, a free value (log 43).
-/
namespace Sys2Proof.Machine

-- Preludes.

/-- Work of the prelude is added. -/
def Part.addPlan (x : Part) (f : StepPlan → StepPlan) : Part := { x with plan := f x.plan }

/-- Sequences of the model in PAUSING get their harvests: cold pages for the pages that hold something and that no other sequence names
(R187, R224). -/
def State.planPauses (s : State) (p m : Nat) : State :=
  ((s.part p).seqs.filter (fun q => q.model == m && q.st == .pausing && q.pend.isNone && !q.planned)).foldl (fun s q =>
    let base := ((s.part p).modelAt m).triples
    let go : List (Nat × Nat × Nat) := q.pages.zipIdx.flatMap (fun (l, t) => (l.take (q.filledPages base t)).zipIdx.filterMap (fun (o, i) =>
      match o with
      | some r => if Pte.refcnt (s.pte r) ≤ 1 then some (t, i, r) else none
      | none => none))
    match s.pickCold (s.part p).tenant false go.length with
    | (none, s) => s
    | (some cold, s) =>
      (s.event p 3 q.chan q.seqh 0).onPart p (fun x =>
        (x.setSeq { q with planned := true, cold := q.cold ++ (go.zip cold).map (fun e => (e.1.1, e.1.2.1, e.2)) }).addPlan (fun l =>
          { l with harvests := l.harvests ++ (go.zip cold).map (fun e => (e.1.2.2, e.2, q.ctx)) }))) s

/-- First and last place of a page list that `n` more entries are written to (R172). -/
def Sequence.written (q : Sequence) (cap n : Nat) : Nat × Nat :=
  (if 0 < q.room cap then q.counts.length - 1 else q.counts.length, (growCounts cap q.counts n).length - 1)

/-- Entries that the step writes for a request: those of its chunk, or of its decode slot behind those of a COPY (R172, R195, R222). -/
def Decision.writes (d : Decision) (r : Request) : Nat :=
  let copied := (d.specs.filter (fun e => e.2.1 == r.chan && e.2.2.1 == r.reqSeq)).foldl (fun a e => a + e.2.2.2.length) 0
  let chunk := (d.chunks.filter (fun e => e.1 == r.chan && e.2.1 == r.reqSeq)).foldl (fun a e => a + e.2.2.2) 0
  if d.decodes.any (fun e => e.1 == r.chan && e.2.2.1 == r.reqSeq) then copied + 1 else chunk

/-- Requests that a decision serves, in the order of its decode slots and chunks (R195, R196). -/
def Part.served (x : Part) (d : Decision) : List Request :=
  d.decodes.filterMap (fun e => x.req e.1 e.2.2.1) ++ d.chunks.filterMap (fun e => x.req e.1 e.2.1)

/-- One planned copy (R153): a page of a list that another sequence also names is replaced by a new page of the same Pan, and the copy
enters the prelude; none where the Pan has no free page. -/
def State.planCopy (s : State) (p : Nat) (r : Request) (t i : Nat) : Option State :=
  let q := (s.part p).sequenceOf r
  match (q.pages.getD t []).getD i none with
  | none => some s
  | some row =>
    let e := s.pte row
    if Pte.refcnt e ≤ 1 then some s
    else match s.allocIn p (pagePanNo row) (Pte.fmt e) (Pte.kind e) (Pte.ctx e) with
    | (none, _) => none
    | (some new, s) =>
      some ((s.setPte row (ptEntry 3 e 0)).onPart p (fun x =>
        (x.setSeq { q with pages := q.pages.set t ((q.pages.getD t []).set i (some new)) }).addPlan (fun l =>
          { l with copies := l.copies ++ [(row, new)] })))

/-- Copies for every sequence that will write in the step to a page whose REFCNT is greater than 1, in every list (R153). -/
def State.planCopies (s : State) (p : Nat) (d : Decision) : Option State :=
  ((s.part p).served d).foldl (fun (o : Option State) r =>
    let x := s.part p
    let m := x.modelAt r.model
    let n := d.writes r
    let (a, b) := (x.sequenceOf r).written m.pageCap n
    if n = 0 then o
    else (List.range m.triples).foldl (fun o t => (range2 a b).foldl (fun o i => o.bind (fun s => s.planCopy p r t i)) o) o) (some s)

/-- The commit of one accepted path: SCRATCH pages with the pages that take their entries, and the commit map of three units in the DATA
page that the family designates (R222). -/
def State.planCommit (s : State) (p : Nat) (r : Request) (q : Sequence) (path scratch : List Nat) : State :=
  let cap := ((s.part p).modelAt q.model).pageCap
  let k := path.length
  let copy := decide (k ≤ q.room cap)
  let last := q.counts.length - 1
  let moves := scratch.zipIdx.map (fun (row, t) => (row, if copy then (q.pages.getD t []).getD last none else none))
  let map := bytes [if copy then 1 else 2, k, 0, 0] ++ le 4 q.len ++ le 4 (if copy then q.counts.getLastD 0 + k else k) ++ zeros 20
    ++ LogRec.pathBytes 64 path
  let s := match s.familyPlace p r 1 with | some a => s.panWrite a map | none => s
  s.onPart p (fun x => x.addPlan (fun l => { l with commits := l.commits ++ moves }))

/-- The commits of the speculative acceptances of a decision (R222, R224); an empty path has nothing to commit. -/
def State.planCommits (s : State) (p : Nat) (specs : List (Nat × Nat × Nat × List Nat)) : State :=
  specs.foldl (fun s d =>
    let x := s.part p
    if d.2.2.2.isEmpty then s
    else match x.req d.2.1 d.2.2.1 with
    | some r => s.planCommit p r (x.sequenceOf r) d.2.2.2 r.scratch
    | none =>
      match x.seqs.find? (fun q => q.chan == d.2.1 && q.pend.map (·.1) == some d.2.2.1) with
      | some q => s.planCommit p { chan := d.2.1, reqSeq := d.2.2.1, ctx := q.ctx } q d.2.2.2 q.scratch
      | none => s) s

/-- The cold pages of a picture's buffer set are flooded in the prelude (R263). -/
def State.planBuffers (s : State) (p vctx set : Nat) : State :=
  match s.findVctx p vctx with
  | none => s
  | some (_, _, c) => s.onPart p (fun x => x.addPlan (fun l =>
      { l with buffers := l.buffers ++ (List.range (Vid.setPages c.params)).map (fun i => (Vid.setBase c.params set + i, 0)) }))

/-- What a decision needs placed and planned before its release (R153, R187, R189, R219, R222, R242); none where a copy finds no free
page. -/
def State.prelude (s : State) (p : Nat) (d : Decision) : Option State :=
  let s := ((s.part p).served d).foldl (fun s r => ((s.fillPages p r).floodPages p r).workPages p r) s
  let s := s.planCommits p d.specs
  let s := d.decodes.foldl (fun s e => if e.2.2.2 then
      (match (s.part p).req e.1 e.2.2.1 with | some r => s.scratchPages p r | none => s) else s) s
  s.planCopies p d

-- The entries.

/-- The entry of a page slot (R197). -/
def State.pageEntry (s : State) (row : Nat) (write : Bool) : Bnd.Entry :=
  let e := s.pte row
  BitVec.ofNat 256 (1 + 2 ^ 3 * b2n write + 2 ^ 4 * Pte.ctx e + 2 ^ 10 * Pte.gen e + 2 ^ 18 * row)

/-- The entry of a cold slot (R197). -/
def coldEntry (e : Nat × Nat) : Bnd.Entry := BitVec.ofNat 256 (2 + 2 ^ 3 * e.1 + 2 ^ 24 * e.2)

/-- Pages that a checkpoint or a snapshot harvests in the prelude, with their cold pages and contexts (R349, R474). -/
def State.savedMoves (s : State) (x : Part) : List (Nat × Nat × Nat) :=
  ((match x.pendCkpt with | some c => c.pages | none => []) ++ (match x.snapshot with | some (c, _) => c.pages | none => [])).map
    (fun (e : Nat × Nat) => (e.1, e.2, Pte.ctx (s.pte e.1)))

/-- Pages of cell n that the prelude reaches, with whether it writes them: copies, floods, harvests and commits (R150, R153, R189,
R222). -/
def State.preludePages (s : State) (x : Part) (n : Nat) : List (Nat × Bool) :=
  let l := x.plan
  let pages : List (Nat × Bool) :=
    l.copies.flatMap (fun e => [(e.1, false), (e.2, true)]) ++ l.floods.map (fun e => (e.1, true))
      ++ (l.harvests ++ s.savedMoves x).map (fun e => (e.1, false))
      ++ l.commits.flatMap (fun e => match e.2 with | some t => [(e.1, false), (t, true)] | none => [(e.1, true)])
  pages.filter (fun e => pageCell e.1 == n)

/-- Cold pages that cell n's prelude floods or harvests, with their contexts; the pages of a picture's buffer set go to the cells whose
fixed slots take its tiles (R189, R263). -/
def State.preludeCold (s : State) (x : Part) (n : Nat) : List (Nat × Nat) :=
  ((x.plan.floods ++ x.plan.harvests ++ s.savedMoves x).filter (fun e => pageCell e.1 == n)).map (·.2) ++ x.plan.buffers

/-- Pages of cell n that the step's work reaches behind its prelude, with whether it writes them: the pages of the served sequences,
of which those that take new entries are written; the two pages of each scanned state; the SCRATCH page of a request that speculates;
and the model's weights (R161, R162, R172, R219, R242). -/
def Part.bodyPages (x : Part) (d : Decision) (n : Nat) : List (Nat × Bool) :=
  let m := x.modelAt d.model
  let base := m.triples
  let weights : List Nat := m.weights.flatMap (fun h => match Sp.get none x.wimgs h with | some w => w.rows | none => [])
  let ofReq (r : Request) : List (Nat × Bool) :=
    let q := x.sequenceOf r
    let k := d.writes r
    let (a, b) := q.written m.pageCap k
    let specul := d.decodes.any (fun e => e.1 == r.chan && e.2.2.1 == r.reqSeq && e.2.2.2)
    (q.pages.take base).flatMap (fun l => l.zipIdx.filterMap (fun (o, i) =>
        o.map (fun row => (row, decide (0 < k) && decide (a ≤ i) && decide (i ≤ b)))))
      ++ (q.pages.drop base).flatMap (fun l => l.filterMap (fun o => o.map (fun row => (row, false))))
      ++ (q.work.filterMap id).map (fun row => (row, true)) ++ (if specul then r.scratch.map (fun row => (row, true)) else [])
  ((x.served d).flatMap ofReq ++ weights.map (fun row => (row, false))).filter (fun e => pageCell e.1 == n)

/-- Cold pages of the input buffers that the step may harvest a picture to encode into: the first free buffer of each encode context of
the partition (R265). -/
def State.encodeCold (s : State) (p : Nat) : List (Nat × Nat) :=
  (List.range 32).flatMap (fun i => match s.vctx (i / 8) (i % 8) with
    | some c =>
      if c.part = p ∧ !c.isDecode then
        (match (List.range (Vid.nbuf c.params)).find? (fun k => !c.used.contains k) with
        | some set => (List.range (Vid.setPages c.params)).map (fun j => (Vid.setBase c.params set + j, 0))
        | none => [])
      else []
    | none => [])

/-- The OUT entry of a request's frames in a step: the channel's next output number, the due tick of its next output with the
interval after it, and ENDSEL 1 in the step that produces its MAXTOK-th token (R197, R199, R200, R206). -/
def outEntry (r : Request) (seq : Nat) : Bnd.Entry :=
  let endsel := if r.produced + 1 ≥ r.maxtok then 1 else 2
  let due := (r.due r.produced).getD 0
  BitVec.ofNat 256 (4 + 2 ^ 3 * r.chan + 2 ^ 11 * r.ctx + 2 ^ 17 * endsel + 2 ^ 20 * (seq % 2 ^ 32) + 2 ^ 64 * due
    + 2 ^ 128 * (if due = 0 then 0 else usTicks * r.nextUs))

/-- The OUT entries of the requests that produce a token, in the order of their decode slots; the entries of one channel take
successive numbers (R191, R199). -/
def outEntries (f : Fn) (rs : List Request) : List Bnd.Entry :=
  rs.zipIdx.map (fun (r, i) =>
    outEntry r ((f.out r.chan).next + ((rs.take i).filter (fun q => q.chan == r.chan)).length))

/-- Slots of a list that take an entry of a TYPE and of none before it in the order OUT, INQ, PAGE, COLD; prelude slots are those below
PRESLOTS (R150, R198). -/
def slotsOf (uses : List (Nat × Nat)) (ok : Nat → Bool) : List Nat :=
  sortNat ((uses.filter (fun e => ok e.2)).map (·.1))

/-- Entries that a cell's slots take: slot and entry (R150, R191, R197 to R200). -/
def State.cellEntries (s : State) (p : Nat) (d : Decision) (pre : Nat) (uses : List (Nat × Nat)) (outs : List (Nat × Bnd.Entry))
    (n : Nat) : List (Nat × Bnd.Entry) :=
  let x := s.part p
  let stream (m : Nat) : Bool := m.testBit 4 || m.testBit 3
  let page := slotsOf uses (fun m => !stream m && m.testBit 1)
  let cold := slotsOf uses (fun m => !stream m && !m.testBit 1 && m.testBit 2)
  let inq := slotsOf uses (fun m => !m.testBit 4 && m.testBit 3)
  let entry (l : List (Nat × (Nat × Bool))) : List (Nat × Bnd.Entry) := l.map (fun e => (e.1, s.pageEntry e.2.1 e.2.2))
  outs ++ inq.map (fun sl => (sl, BitVec.ofNat 256 (3 + 2 ^ 3 * (Config.bindTarget x.step 0 sl 2 % 256))))
    ++ entry (assign x.step n 0 (page.filter (· < pre)) (s.preludePages x n))
    ++ entry (assign x.step n 0 (page.filter (pre ≤ ·)) (x.bodyPages d n))
    ++ (assign x.step n 1 (cold.filter (· < pre)) (s.preludeCold x n)).map (fun e => (e.1, coldEntry e.2))
    ++ (assign x.step n 1 (cold.filter (pre ≤ ·)) (s.encodeCold p)).map (fun e => (e.1, coldEntry e.2))

/-- The bind set of a decision: every slot that the step list names is bound in every cell of the partition, to NONE where nothing is
its own (R150, R191, R193, R196); the work pages so named through WRITE slots are noted (R242). -/
def State.writeBinds (s : State) (p : Nat) (d : Decision) : State :=
  let x := s.part p
  let plates := d.list.filterMap x.plate
  let uses := listUses plates
  let pre := (plates.headD {}).preslots
  let rs := d.tokenReqs x
  let outs := outEntries (s.fn (partFn p)) rs
  let outs := (outPlaces x x.step d.list rs.length).map (fun e => (e.1, outs.getD e.2 0))
  let cells := x.cells.map (fun n => (n, s.cellEntries p d pre uses outs n))
  let work := (x.served d).flatMap (fun r => (x.sequenceOf r).work.filterMap id)
  let named := cells.flatMap (fun e => e.2.filterMap (fun b =>
    if Bnd.typ b.2 == 1 && Bnd.mode b.2 && work.contains (Bnd.row b.2) then some (Bnd.row b.2) else none))
  let s := s.setMem (fun m => { m with
    bind := cells.foldl (fun b e => uses.foldl (fun b (sl, _) =>
      Sp.set 0 b ((2 * e.1 + d.bset) * 65536 + sl) (((e.2.find? (fun t => t.1 == sl)).map (·.2)).getD 0)) b) m.bind })
  s.onPart p (fun x => x.addPlan (fun l => { l with states := named }))

end Sys2Proof.Machine
end

