-- ==== Sys2Proof/Machine/DomeFirmware.lean ====
section
/-!
DEFINITION. The procedures of Dome firmware: the step boundary (R184 to R196, R204 to R206, R222 to R227, R263, R344,
R474), the commit record (R203, R286), release of a standby (R345), replay and rebuild (R471, R475), and the end of a scrub
(R435, R436).
-/
namespace Sys2Proof.Machine

-- Refusal of requests (R184, R185).

/-- The reason for which a QUEUED request is refused, or none (R185, R209): an OPEN for a context that is not OPEN is refused with
CONTEXT whatever its sequence handle names (R190). -/
def State.requestRefusal (s : State) (p : Nat) (r : Request) : Option Nat :=
  let x := s.part p
  let q := x.seqOf r.ctx r.seqh
  let md := x.modelAt r.model
  let pans := x.serving p r
  let n := x.perTriple r ((q.map (·.len)).getD 0)
  if decide (r.params.length < 64) || decide (r.params.length < 64 + 4 * r.ntok) || decide (r.oflags ≥ 8)
      || !allZero r.params 2 2 || !allZero r.params 0x28 24 || decide (r.model > 3)
      || (!r.prefillOnly && r.maxtok == 0)
      || (match x.model r.model with | some m => (Sp.get none m.profiles r.sprof).isNone | none => false) then some 1
  else if (x.model r.model).isNone then some 2
  else if (x.ctx r.ctx).st != .opened then some 6
  else if r.seqh == 0 || (!r.resume && q.isSome) || (r.resume && (q.map (·.st)) == some .active) then some 3
  else if r.resume && (match q with
      | none => true
      | some q => q.st == .paused && decide (r.accTick > q.expiry)) then some 4
  else if decide ((q.map (·.len)).getD 0 + r.ntok + (if r.prefillOnly then 0 else r.maxtok) > md.maxctx)
      || (r.ntok == 0 && !r.resume) then some 5
  else if decide (n * pans.length > md.kvbud)
      || pans.any (fun pan => decide (n * (pans.filter (· == pan)).length > 32)) then some 7
  else none

/-- A refused request ends with a REFUSED terminal frame (R185, R186). -/
def State.refuseRequest (s : State) (p : Nat) (r : Request) (reason : Nat) : State :=
  (s.terminal p r 5 reason).endRequest p r

-- Events of a boundary (R186 to R190, R193, R204).

/-- A STATUS frame (R204, R300). -/
def State.sendStatus (s : State) (p chan reqSeq result : Nat) : State :=
  s.sendOut (partFn p) 8 chan 0 0 (le 4 reqSeq ++ le 1 result ++ zeros 11)

/-- A CANCEL is applied and enters the decision record, whatever its result (R196, R204). -/
def State.applyCancel (s : State) (p chan reqSeq : Nat) : State :=
  let x := s.part p
  let s := s.event p 1 chan (reqSeq % 2 ^ 32) 0
  match x.req chan reqSeq with
  | some r => ((s.sendStatus p chan reqSeq 1).terminal p r 3 0xFFFFFFFF).endRequest p r
  | none => s.sendStatus p chan reqSeq (if x.endedReqs.contains (chan, reqSeq) then 2 else 3)

/-- Requests of a context are cancelled when it closes: those accepted before its CTX_CLOSE; one accepted later is refused (R190, R193,
R304). -/
def State.cancelContext (s : State) (p c tick : Nat) : State :=
  ((s.part p).reqs.filter (fun r => r.ctx == c && decide (r.accTick < tick))).foldl (fun s r =>
    (s.terminal p r 3 0xFFFFFFFF).endRequest p r) s

/-- Zeroing of every cell of a partition at a scrub (R435). -/
def State.scrubCells (s : State) (x : Part) : State :=
  x.cells.foldl (fun s n =>
    let s := s.ssClear (262144 * n) 262144
    let s := s.setMem (fun m => { m with
      acc := Sp.clear m.acc (8192 * n) 8192
      vreg := Sp.clear m.vreg (4096 * n) 4096
      bind := Sp.clear m.bind (131072 * n) 131072 })
    s.onCell n (fun c => { c with segBuf := [], queues := [], ops := [], tokens := [] })) s

/-- A key is destroyed (R275). -/
def State.destroyKey (s : State) (k : Option Nat) : State :=
  { s with watch := { s.watch with keys := s.watch.keys.filter (fun n => some n != k) } }

/-- The scrub of a context begins (R190, R435). -/
def State.scrubContext (s : State) (p c : Nat) : State :=
  let x := s.part p
  let held (r : Nat) : Bool := Pte.state (s.pte r) == Pte.live || Pte.state (s.pte r) == Pte.sealed_
  let mine := x.rowsOf.filter (fun r => held r && Pte.part (s.pte r) == p)
  let owned := mine.filter (fun r =>
    let k := Pte.kind (s.pte r); (2 ≤ k && k ≤ 4) && Pte.ctx (s.pte r) == c)
  let datas := mine.filter (fun r => Pte.kind (s.pte r) == Pte.data)
  let keep := datas.map (fun r => (r, s.pte r))
  -- the lists that name the pages of the context go with it: REF_DEC of each, and FREE (R151)
  let s := owned.foldl (fun s r => s.setPte r (if Pte.kind (s.pte r) == Pte.scratch then s.pte r else putFld (s.pte r) 24 12 0)) s
  let s := (s.freePages (owned ++ datas)).scrubCells x
  let s := s.destroyKey (x.ctx c).key
  let s := s.onPart p (fun x => { x.setCtx c { x.ctx c with st := .scrubbing, key := none } with
    seqs := x.seqs.filter (fun q => q.ctx != c), realloc := x.realloc ++ keep })
  { s with scrubs := addOnce (.ctx p c) s.scrubs }

/-- Contexts that closed at an earlier boundary begin their scrub (R190). -/
def State.scrubClosed (s : State) (p : Nat) : State :=
  (List.range 64).foldl (fun s c => if ((s.part p).ctx c).st == .closing then s.scrubContext p c else s) s

/-- A logged frame carries a command marked B (R313). -/
def isBFrame (frame : Bytes) : Bool :=
  Fr.typ frame == 1 && [0x0202, 0x0302, 0x0303, 0x0304, 0x0603].contains (u16 (frame.drop 32) 0)

/-- A fork waits while a commit of a verify step of the sequence is pending (R227); at a boundary no verify step runs. -/
def State.forkWaits (s : State) (p : Nat) (c : Cmd) : Bool :=
  let x := s.part p
  let ctx := u8 c.payload 8
  let h := u32 c.payload 12
  c.opc == 0x0303 && (x.reqs.any (fun r => r.ctx == ctx && r.seqh == h && r.pending)
    || (match x.seqOf ctx h with | some q => (match q.pend with | some e => !e.2.2.isEmpty | none => false) | none => false))

/-- Reserved parameter bytes of a B command are 0 and its fields in range (R314). -/
def bFieldsOk (c : Cmd) : Bool :=
  let b := c.payload
  allZero b 2 6 && match c.opc with
  | 0x0202 => u8 b 8 != 0 && decide (u8 b 9 ≤ 1) && 1 ≤ u8 b 10 && u8 b 10 ≤ 3
  | 0x0302 => decide (u8 b 8 ≤ 63)
  | 0x0303 => decide (u8 b 8 ≤ 63) && allZero b 9 3 && u32 b 0x10 != 0 && u32 b 0x14 != 0
  | 0x0304 => decide (u8 b 8 ≤ 63) && allZero b 9 3
  | _ => decide (u8 b 8 ≤ 31)

/-- OUTCH_CONFIG applied: a channel starts at 0:0, and goes on where frames have taken numbers before (R301, R313, R314). -/
def State.applyOutch (s : State) (p : Nat) (c : Cmd) : State :=
  let f := partFn p
  let b := c.payload
  let ch := u8 b 8
  let o := (s.fn f).out ch
  (s.onFn f (fun x => x.setOut ch { o with configured := true, discard := u8 b 9 == 1, ports := u8 b 10 })).respond
    f c.seq 0x0202 0 []

/-- CTX_CLOSE applied (R190): an OPEN context goes to CLOSING. -/
def State.applyClose (s : State) (p : Nat) (c : Cmd) : State :=
  let n := u8 c.payload 8
  if ((s.part p).ctx n).st != .opened then s.respond (partFn p) c.seq 0x0302 0x0104 []
  else
    let s := (s.event p 2 n 0 0).cancelContext p n c.tick
    let s := s.onPart p (fun x => x.setCtx n { x.ctx n with st := .closing, closeCmd := some c.seq })
    s.onFn (partFn p) (fun x => { x with open_ := x.open_ ++ [c] })

/-- FORK applied (R314): SEQH2 is a PAUSED sequence that names every listed page of SEQH, in the Pan or in the cold tier. A page whose
REFCNT is 4,095 takes no further name (R151, R156): the command is answered STATE (log 152). -/
def State.applyFork (s : State) (p : Nat) (c : Cmd) (tb : Nat) : State :=
  let x := s.part p
  let b := c.payload
  let ctx := u8 b 8
  let h2 := u32 b 0x10
  match x.seqOf ctx (u32 b 12) with
  | none => s.respond (partFn p) c.seq 0x0303 0x0104 []
  | some q =>
    if (x.seqOf ctx h2).isSome || q.rows.any (fun r => Pte.refcnt (s.pte r) == 4095) then
      s.respond (partFn p) c.seq 0x0303 0x0104 []
    else
      let s := q.rows.foldl (fun s r => s.setPte r (ptEntry 2 (s.pte r) 0)) s
      let q2 : Sequence := { q with
        seqh := h2, st := .paused, ttl := u32 b 0x14, pend := none, scratch := [], planned := false
        work := q.work.map (fun _ => none), cold := if q.st == .paused then q.cold else []
        expiry := tb + msTicks * u32 b 0x14 }
      (s.onPart p (fun x => { x with seqs := x.seqs ++ [q2] })).respond (partFn p) c.seq 0x0303 0 []

/-- SEQ_DROP applied (R314): a PAUSED sequence is freed. -/
def State.applyDrop (s : State) (p : Nat) (c : Cmd) : State :=
  match (s.part p).seqOf (u8 c.payload 8) (u32 c.payload 12) with
  | none => s.respond (partFn p) c.seq 0x0304 0x0104 []
  | some q =>
    if q.st != .paused then s.respond (partFn p) c.seq 0x0304 0x0104 []
    else (s.freeSequence p q).respond (partFn p) c.seq 0x0304 0 []

/-- KEY_REQUEST applied (R266, R314). -/
def State.applyKeyRequest (s : State) (p : Nat) (c : Cmd) : State :=
  match s.findVctx p (u8 c.payload 8) with
  | none => s.respond (partFn p) c.seq 0x0603 0x0106 []
  | some (k, j, v) =>
    if v.isDecode then s.respond (partFn p) c.seq 0x0603 0x0104 []
    else (s.setVctx k j (some { v with keyReq := true })).respond (partFn p) c.seq 0x0603 0 []

/-- A B command is applied through the decision record and answered (R196, R311). -/
def State.applyB (s : State) (p : Nat) (c : Cmd) (tb : Nat) : State :=
  let s := s.onFn (partFn p) (fun x => { x with bcmds := x.bcmds.filter (fun o => o.seq != c.seq) })
  -- a close that takes effect is an event of its own (R285)
  let closes := c.opc == 0x0302 && bFieldsOk c && ((s.part p).ctx (u8 c.payload 8)).st == .opened
  let s := if closes then s else s.event p 7 0 0 c.seq
  if !bFieldsOk c then s.respond (partFn p) c.seq c.opc 0x0102 []
  else match c.opc with
  | 0x0202 => s.applyOutch p c
  | 0x0302 => s.applyClose p c
  | 0x0303 => s.applyFork p c tb
  | 0x0304 => s.applyDrop p c
  | _ => s.applyKeyRequest p c

/-- The CANCEL frames and B commands of a boundary in acceptance order, which within a tick is that of the channels (R193, R304); a command
comes on channel 0. -/
def State.boundaryEvents (s : State) (p tb : Nat) : State :=
  let x := s.part p
  let cs := (x.cancels.filter (fun c => decide (c.2.2 ≤ tb))).map (fun c => ((c.2.2, c.1), (Sum.inl (c.1, c.2.1) : Sum (Nat × Nat) Cmd)))
  let bs := ((s.fn (partFn p)).bcmds.filter (fun c => decide (c.tick ≤ tb) && !s.forkWaits p c)).map (fun c => ((c.tick, 0), Sum.inr c))
  let evs := sortBy (fun a b => decide (a.1.1 < b.1.1) || (a.1.1 == b.1.1 && decide (a.1.2 ≤ b.1.2))) (bs ++ cs)
  let s := s.onPart p (fun x => { x with cancels := x.cancels.filter (fun c => decide (c.2.2 > tb)) })
  evs.foldl (fun s e => match e.2 with
    | .inl (chan, n) => s.applyCancel p chan n
    | .inr c => s.applyB p c tb) s

/-- PAUSED sequences whose expiry tick is past are freed, but for those an in-time RESUME awaits (R187, R188). -/
def State.applyExpiries (s : State) (p tb : Nat) : State :=
  let x := s.part p
  let gone := x.seqs.filter (fun q => q.st == .paused && decide (q.expiry < tb)
    && !x.reqs.any (fun r => r.st == .queued && r.resume && r.ctx == q.ctx && r.seqh == q.seqh && decide (r.accTick ≤ q.expiry)))
  gone.foldl (fun s q => (s.event p 5 q.chan q.seqh 0).freeSequence p q) s

/-- QUEUED requests accepted by tb that name no model of the partition, which no step will serve, in acceptance order (R185, log 44). -/
def State.refuseStray (s : State) (p tb : Nat) : State :=
  ((s.part p).reqs.filter (fun r => r.st == .queued && decide (r.accTick ≤ tb) && (decide (r.model > 3) || ((s.part p).model r.model).isNone))).foldl
    (fun s r => match s.requestRefusal p r with
      | some reason => s.refuseRequest p r reason
      | none => s) s

-- Models and admission (R192 to R195).

/-- The model slot has work (R192, R224). -/
def Part.hasWork (x : Part) (m : Nat) (tb : Nat) : Bool :=
  x.reqs.any (fun r => r.model == m && (r.st == .prefill || r.st == .decode || r.commitPend.isSome
      || (r.st == .queued && decide (r.accTick ≤ tb))))
    || x.seqs.any (fun q => q.model == m && (q.st == .pausing || q.pend.isSome))

/-- The next model slot in ascending order after the last one served (R192). -/
def Part.nextModel (x : Part) (tb : Nat) : Option Nat :=
  let start := match x.lastModel with | some m => m + 1 | none => 0
  ((List.range 4).map (fun i => (start + i) % 4)).find? (fun m => (x.model m).isSome && x.hasWork m tb)

/-- A request is admitted: its seed is fixed, its pages are reserved, and its sequence is ACTIVE; harvests of a PAUSING sequence are dropped
and the cold pages written so far are freed (R186, R187, R194). -/
def State.admitRequest (s : State) (p : Nat) (r : Request) : State :=
  let (rnd, s) := s.draw
  let seed := if r.seedField = 0 then rnd % 2 ^ 64 else r.seedField
  let x := s.part p
  let q := x.sequenceOf r
  let fresh := (x.seqOf r.ctx r.seqh).isNone
  let n := x.perTriple r q.len
  let s := if fresh then s else s.event p 4 r.chan r.seqh 0
  let q' := { q with
    st := .active, chan := r.chan, model := r.model, planned := false
    cold := if q.st == .pausing then [] else q.cold }
  let r' := { r with st := .prefill, seed := seed, reserved := n }
  let s := s.onPart p (fun x => ({ x with seqs := if fresh then x.seqs ++ [q'] else x.seqs }.setSeq q').setReq r')
  s.makeLists p r'

/-- QUEUED requests of the model in acceptance order: refused, admitted, or the end of admission (R193). -/
def State.admitAll (s : State) (p : Nat) : List Request → List (Nat × Nat × Nat × Nat) →
    State × List (Nat × Nat × Nat × Nat)
  | [], acc => (s, acc)
  | r :: t, acc =>
    match s.requestRefusal p r with
    | some reason => State.admitAll (s.refuseRequest p r reason) p t acc
    | none =>
      if s.requestFits p r then
        let s := s.admitRequest p r
        let seed := match (s.part p).req r.chan r.reqSeq with | some q => q.seed | none => 0
        State.admitAll s p t (acc ++ [(r.chan, r.ctx, r.reqSeq, seed)])
      else (s, acc)

/-- Prefill chunks in admission order within the budget (R195): channel, REQ_SEQ, first token, length. A resumed request without
prompt tokens takes one empty chunk (R185, R186, log 44). -/
def planChunks : List Request → Nat → List (Nat × Nat × Nat × Nat)
  | [], _ => []
  | r :: t, budget =>
    if budget = 0 then []
    else
      let n := min (r.ntok - r.filled) budget
      (r.chan, r.reqSeq, r.filled, n) :: planChunks t (budget - n)

/-- Depth of a tree shape (R217). -/
def treeDepth (parents : List Nat) : Nat :=
  (parents.foldl (fun (l : List Nat) q => l ++ [if q = 0xFF then 1 else l.getD q 0 + 1]) []).foldl max 0

/-- The request speculates in the step (R225). -/
def Part.speculates (x : Part) (r : Request) : Bool :=
  let dmax := match Sp.get none (x.modelAt r.model).trees (x.treeOf r) with | some t => treeDepth t | none => 0
  x.speculator r && !r.suspended && !r.pending && decide (r.maxtok - r.produced > dmax + 1)

/-- Acceptances of the last verify steps of the model, which this step's record holds and whose commits its prelude makes (R221, R222,
R224): N, channel, REQ_SEQ, path. -/
def Part.planSpecs (x : Part) (m : Nat) : List (Nat × Nat × Nat × List Nat) :=
  x.reqs.filterMap (fun r => if r.model = m then r.commitPend.map (fun c => (c.1, r.chan, r.reqSeq, c.2)) else none)
    ++ x.seqs.filterMap (fun q => if q.model = m then q.pend.map (fun e => (e.2.1, q.chan, e.1, e.2.2)) else none)

/-- A request whose commit in this step is a REMAP is not decoded (R222). -/
def Part.remaps (x : Part) (r : Request) : Bool :=
  match r.commitPend with
  | some (_, path) => decide (path.length > (x.sequenceOf r).room (x.modelAt r.model).pageCap)
  | none => false

/-- Pictures flooded in the step: the oldest shaped picture of each decode context of the partition (R263). -/
def State.planPics (s : State) (p : Nat) : List (Nat × Nat × Nat) × State :=
  (List.range 32).foldl (fun (a : List (Nat × Nat × Nat) × State) i =>
    let (k, j) := (i / 8, i % 8)
    match a.2.vctx k j with
    | none => a
    | some c =>
      if c.part ≠ p then a
      else match c.shaped.find? (fun e => e.2.isSome) with
        | some (num, some set) =>
          (a.1 ++ [(c.vctx, set, num)], a.2.setVctx k j (some { c with shaped := c.shaped.filter (fun e => decide (e.1 > num)) }))
        | _ => a) ([], s)

/-- The smallest bucket at least equal to a count, by index. -/
def bucketFor (l : List Nat) (n : Nat) : Option Nat := l.findIdx? (fun b => decide (n ≤ b))

/-- The step list of a model for a decode count and a prefill length (R191). -/
def Model.stepList (m : Model) (ndec npre : Nat) : List Nat :=
  let i := (bucketFor m.decB ndec).getD 0
  let j := if npre = 0 then 0 else match bucketFor m.preB npre with | some k => k + 1 | none => 0
  m.lists.getD (i * (m.preB.length + 1) + j) []

/-- What a partition holds at a boundary, as a checkpoint or a snapshot saves it (R349, R474): pages of the kinds named, with
the cold pages that take them. -/
def State.saveSet (s : State) (p step : Nat) (pages : List (Nat × Nat)) : Checkpoint :=
  let x := s.part p
  let f := s.fn (partFn p)
  { step := step
    ptes := x.rowsOf.filterMap (fun r => if s.pte r = 0 then none else some (r, s.pte r))
    pages := pages
    bytes := s.mem.pan.filter (fun e => x.hasCell (pageCell (e.1 / pageBytes)))
    reqs := x.reqs, seqs := x.seqs, ended := x.endedReqs
    outs := (List.range 255).map (fun i => (i + 1, (f.out (i + 1)).next)) }

/-- LIVE or SEALED pages of kinds KV, STATE, SCRATCH and DATA (R349, R474). -/
def State.savedRows (s : State) (p : Nat) (dirtyOnly : Bool) : List Nat :=
  (s.part p).rowsOf.filter (fun r =>
    let e := s.pte r
    let k := Pte.kind e
    (Pte.state e == Pte.live || Pte.state e == Pte.sealed_) && (k == 0 || (2 ≤ k && k ≤ 4)) && (!dirtyOnly || Pte.dirty e))

/-- The checkpoint at the step just committed, harvested in the prelude of the next one (R474, log 29). -/
def State.planCheckpoint (s : State) (p : Nat) : State :=
  let x := s.part p
  if x.step = 0 then s
  else
    let rows := s.savedRows p true
    match s.pickCold x.tenant true rows.length with
    | (none, s) => s
    | (some cold, s) =>
      let c := s.saveSet p (x.step - 1) (rows.zip cold)
      s.onPart p (fun x => { x with pendCkpt := some c })

/-- The snapshot of a partition of the mask is planned at its boundary; with too few free cold pages the command is answered
SNAP_SPACE and nothing happens (R337, R349). -/
def State.planSnapshot (s : State) (p : Nat) : State :=
  match s.pair.snapCmd with
  | none => s
  | some cmd =>
    if !s.pair.snapLeft.testBit p then s
    else
      let x := s.part p
      let rows := s.savedRows p false
      match s.pickCold x.tenant false rows.length with
      | (none, s) =>
        let s := { s with pair := { s.pair with snapCmd := none, snapLeft := 0 } }
        ((List.range 16).foldl (fun s q => s.onPart q (fun x => { x with snapshot := none })) s).respond 0 cmd 0x0806 3 []
      | (some cold, s) =>
        let f := s.fn (partFn p)
        let ins := f.inch.filterMap (fun e => if e.2.configured then
          some (e.1, match e.2.entries.find? (fun t => !t.used) with | some t => t.seq | none => e.2.next) else none)
        let c := s.saveSet p (x.step - 1) (rows.zip cold)
        { s.onPart p (fun x => { x with snapshot := some (c, ins) }) with
          pair := { s.pair with snapLeft := s.pair.snapLeft - 2 ^ p } }

-- Releases.

/-- The output numbers that the step's frames begin at: those at its first release, when it is released again (R288). -/
def State.outputBase (s : State) (p : Nat) (d : Decision) : State :=
  let x := s.part p
  let f := partFn p
  let again := match x.relNext with | some (n, l) => if n = x.step then some l else none | none => none
  match again with
  | some l => s.onFn f (fun y => l.foldl (fun (y : Fn) e => y.setOut e.1 { y.out e.1 with next := e.2 }) y)
  | none =>
    let chans := ((d.tokenReqs x).map (·.chan)).eraseDups
    s.onPart p (fun x => { x with relNext := some (x.step, chans.map (fun c => (c, ((s.fn f).out c).next))) })

/-- The deadline of the step that is released: the one that a PTM_DL write has left, or else the firmware's choice, which no rule states:
a free value (R126, R193, log 45). -/
def State.stepDeadline (s : State) (p : Nat) : State :=
  if (s.part p).dl ≠ 0 then s
  else
    let (dl, s) := s.draw
    s.onPart p (fun x => { x with dl := dl % 2 ^ 64 })

/-- Writes the bind set, the step list and the deadline of a decision and releases the step (R193, R201); a partition under scrub releases
no step (R436). -/
def State.releaseDecision (s : State) (p : Nat) (d : Decision) : State :=
  if s.underScrub p then s
  else
  let s := (((s.placeData p d.list).outputBase p d).writeBinds p d).stepDeadline p
  let list := BitVec.ofNat 64 ((d.list.zipIdx.map (fun e => e.1 * 2 ^ (8 * e.2))).foldl (· + ·) 0)
  (s.onPart p (fun x => { x with list := list })).release p d.list.length d.bset

/-- MIRROR DECISION: the record exactly as written (R343, R344). -/
def State.mirror (s : State) (p : Nat) (d : Decision) : State :=
  if s.pair.st == .active && s.pair.pmask.testBit p then
    let x := s.part p
    let b := LogRec.encode false ((x.recs.getLast?.map (fun r => r.pos)).getD 0 / max 1 x.plog.size) d.step s.now
      (LogRec.decisionItems d)
    s.sendOut (partFn p) 0x0F 0 0 0 (le 1 1 ++ zeros 3 ++ le 4 s.pair.term ++ le 8 d.step ++ b)
  else s

/-- CANCEL entries of the input rings accepted at or before tb are consumed once the record is written (R284). -/
def State.consumeCancels (s : State) (p tb : Nat) : State :=
  s.onFn (partFn p) (fun x => { x with inch := x.inch.map (fun e => (e.1, { e.2 with entries := e.2.entries.map (fun t =>
    if Fr.typ t.frame = 4 ∧ t.tick ≤ tb then { t with used := true } else t) })) })

/-- Bytes that the commit record of a step needs at most (R286). -/
def commitRecordBytes : Nat := 32 + 16 * (255 + 255 + 1)

/-- Requests in acceptance order, which within a tick is that of the channels (R193, R304). -/
def acceptOrder (l : List Request) : List Request :=
  sortBy (fun a b => decide (a.accTick < b.accTick) || (a.accTick == b.accTick && decide (a.chan ≤ b.chan))) l

/-- The work of a step of a model: pending commits, chunks, and decode slots in which a request speculates or not (R193, R195, R222,
R225). -/
def Part.planWork (x : Part) (m : Nat) : Decision :=
  let md := x.modelAt m
  let mine := acceptOrder (x.reqs.filter (fun r => r.model == m))
  let decs := mine.filter (fun r => r.st == .decode && !x.remaps r)
  { step := x.step, model := m, bset := 1 - x.bset, specs := x.planSpecs m
    chunks := planChunks (mine.filter (fun r => r.st == .prefill)) (min md.pbud (md.preB.getLastD 0))
    decodes := decs.zipIdx.map (fun (r, i) => (r.chan, i, r.reqSeq, x.speculates r)) }

/-- The floods of a picture's buffer set enter the plan, for each picture of a decision (R263). -/
def State.planSets (s : State) (p : Nat) (pics : List (Nat × Nat × Nat)) : State :=
  pics.foldl (fun s e => s.planBuffers p e.1 e.2.1) s

/-- A decision is written to the log, mirrored and released; none where its records do not fit (R193, R196, R286, R344). -/
def State.recordStep (s : State) (p tb : Nat) (d : Decision) : Option State :=
  let items := LogRec.decisionItems d
  if !(s.part p).logFits (32 + 16 * items.length + commitRecordBytes) then none
  else (s.plogAppend p false d.step items).map (fun s =>
    let s := (s.consumeCancels p tb).onPart p (fun x => { x with decision := some d, evts := [] })
    (s.mirror p d).releaseDecision p d)

/-- The step is planned for a model, recorded, mirrored and released (R193 to R196), also where no request of it is to be served; none
where its records do not fit, or where a copy finds no free page: then the release waits (log 44). -/
def State.planStep (s : State) (p m tb : Nat) : Option State :=
  let queued := acceptOrder ((s.part p).reqs.filter (fun r => r.model == m && r.st == .queued && decide (r.accTick ≤ tb)))
  let (s, admits) := s.admitAll p queued []
  let s := s.planPauses p m
  let d := (s.part p).planWork m
  (s.prelude p d).bind (fun s =>
    let s := (s.planCheckpoint p).planSnapshot p
    let (pics, s) := s.planPics p
    let s := s.planSets p pics
    let x := s.part p
    let n := d.decodes.length + (finishing x.reqs d.chunks).length
    s.recordStep p tb { d with
      list := (x.modelAt m).stepList n (d.chunks.foldl (fun a c => a + c.2.2.2) 0)
      admits := admits, events := x.evts, pics := pics })

/-- The pair state lets the partition make decisions of its own (R341, R345). -/
def State.decides (s : State) (p : Nat) : Bool :=
  s.pair.st == .unpaired || !s.pair.pmask.testBit p || (s.pair.st == .active && (s.part p).held.isEmpty)

/-- The function's first command waits for a boundary and holds back the next release; a rebuild's steps come before it (R475,
R494). -/
def State.holdsRelease (s : State) (p : Nat) : Bool :=
  let x := s.fn (partFn p)
  (s.part p).rebuildTo.isNone && match x.headCmd with
  | some c =>
    [0x0406, 0x0407, 0x0501, 0x0502].contains c.opc
      || (c.opc == 0x0403 && (match Sp.get none x.images (u32 c.payload 8) with | some i => i.kind != 1 | none => false))
  | none => false

-- Commit record (R203, R284 to R287).

/-- Position of the oldest entry of a ring that is not consumed, and its number (R284). -/
def InChan.consumed (c : InChan) : Nat × Nat :=
  match c.entries.find? (fun e => !e.used) with
  | some e => (e.pos, e.seq)
  | none => (c.ring.head, c.next)

/-- Items of the commit record of the completed step. -/
def State.commitItems (s : State) (p restore : Nat) : List LogItem :=
  let f := s.fn (partFn p)
  f.inch.filterMap (fun e => if e.2.configured then
      -- entries that this step's STRINs have taken are consumed with it
      let c := { e.2 with entries := e.2.entries.map (fun (t : LogEntry) => if t.taken then { t with used := true } else t) }
      some (LogRec.inposItem e.1 (c.consumed.1 % max 1 (e.2.ring.pages * 2048)) c.consumed.2) else none)
    ++ (f.outch.filterMap (fun e => if e.2.configured then some (LogRec.wmarkItem e.1 e.2.watermark) else none))
    ++ [LogRec.restoreItem restore]

/-- Releases of the rings at a restore step (R286): the partition log up to its first record, and each input ring up to the
consumed position that the commit record of that step holds. -/
def State.releaseRings (s : State) (p restore : Nat) : State :=
  let x := s.part p
  let keep := x.recs.filter (fun r => decide (restore ≤ r.step))
  let rel := match keep with | r :: _ => r.pos | [] => x.plog.rel
  let s := s.onPart p (fun x => { x with plog := { x.plog with rel := rel }, recs := keep })
  match keep.find? (fun r => r.commit && r.step == restore) with
  | none => s
  | some r => r.items.foldl (fun s i =>
      if u8 i 0 ≠ 8 then s
      else s.onIn (partFn p) (u8 i 1) (fun c =>
        let e := c.entries.find? (fun e => e.seq == u64 i 8)
        -- a consumed position at the head names the next expected number (R284, R285)
        let pos := match e with | some e => e.pos | none => if u64 i 8 = c.next then c.ring.head else c.ring.rel
        { c with ring := { c.ring with rel := pos }, entries := c.entries.filter (fun e => decide (pos ≤ e.pos)) })) s

/-- COMMIT_RECORD_WRITE: the commit record of the completed step, with its restore step (R203, R286); a step of a rebuild
writes no new record (R475). -/
def execCommitRecordWrite (p : Nat) (s : State) : Out :=
  let x := s.part p
  if x.st != .complete || x.commitRec then .next s
  else if x.rebuildTo.isSome then .next (s.onPart p (fun x => { x with commitRec := true }))
  else
    let restore := match x.pendCkpt with | some c => c.step | none => x.restoreStep
    match s.plogAppend p true x.step (s.commitItems p restore) with
    | none => .next s
    | some s => .next ((s.onPart p (fun x => { x with commitRec := true, restoreStep := restore })).releaseRings p restore)

-- Standby, replay, rebuild.

/-- Every OPEN and CANCEL that a record names is accepted (R345). -/
def State.framesHeld (s : State) (p : Nat) (d : Decision) : Bool :=
  let x := s.part p
  d.admits.all (fun a => x.reqs.any (fun r => r.chan == a.1 && r.reqSeq % 2 ^ 32 == a.2.2.1 % 2 ^ 32))
    && (d.events.filter (fun e => e.1 == 1)).all (fun e =>
        x.cancels.any (fun c => c.1 == e.2.1 && c.2.1 % 2 ^ 32 == e.2.2.1 % 2 ^ 32))

/-- Pictures that a record floods are shaped or dropped by this unit (R264). -/
def State.picturesHeld (s : State) (p : Nat) (d : Decision) : Bool :=
  d.pics.all (fun e => match s.findVctx p e.1 with
    | some (_, _, c) => c.shaped.any (fun q => q.1 == e.2.2)
    | none => false)

/-- The oldest CANCEL entry of a request that a ring still holds is consumed (R284). -/
def useCancel (low : Nat) : List LogEntry → List LogEntry
  | [] => []
  | t :: l => if Fr.typ t.frame = 4 ∧ !t.used ∧ u32 t.frame 32 = low then { t with used := true } :: l else t :: useCancel low l

/-- Events of a record, applied as the record says (R284, R345). -/
def State.applyRecordEvent (s : State) (p : Nat) (e : Nat × Nat × Nat × Nat) : State :=
  let x := s.part p
  match e.1 with
  | 1 =>
    let s := s.onIn (partFn p) e.2.1 (fun c => { c with entries := useCancel e.2.2.1 c.entries })
    match x.cancels.find? (fun c => c.1 == e.2.1 && c.2.1 % 2 ^ 32 == e.2.2.1) with
    | some c => (s.onPart p (fun x => { x with cancels := dropOne c x.cancels })).applyCancel p c.1 c.2.1
    | none => s
  | 2 =>
    match (s.fn (partFn p)).bcmds.find? (fun c => c.opc == 0x0302 && u8 c.payload 8 == e.2.1) with
    | some c => (s.applyB p c s.now).cancelContext p e.2.1 c.tick
    | none => s
  | 7 =>
    match (s.fn (partFn p)).bcmds.find? (fun c => c.seq == e.2.2.2) with
    | some c => s.applyB p c s.now
    | none => s
  | 5 =>
    let late (q : Sequence) : Bool := q.st == .paused && decide (q.expiry < s.now)
    match (x.seqByChan e.2.1 e.2.2.1 late).or (x.seqByChan e.2.1 e.2.2.1 (fun q => q.st == .paused)) with
    | some q => s.freeSequence p q
    | none => s
  | 6 => match x.reqs.find? (fun r => r.chan == e.2.1 && r.reqSeq % 2 ^ 32 == e.2.2.1 % 2 ^ 32) with
    | some r => s.onPart p (fun x => x.setReq { r with suspended := true })
    | none => s
  | _ => s

/-- The admissions of a record, with its seeds (R196). -/
def State.applyRecordAdmit (s : State) (p : Nat) (a : Nat × Nat × Nat × Nat) : State :=
  match (s.part p).reqs.find? (fun r => r.chan == a.1 && r.reqSeq % 2 ^ 32 == a.2.2.1 % 2 ^ 32) with
  | none => s
  | some r =>
    let s := s.admitRequest p r
    match (s.part p).req r.chan r.reqSeq with
    | some q => s.onPart p (fun x => x.setReq { q with seed := a.2.2.2 })
    | none => s

/-- The request that a record's 32-bit number names (R285, R301). -/
def Part.reqByLow (x : Part) (chan low : Nat) : Option Request :=
  x.reqs.find? (fun r => r.chan == chan && r.reqSeq % 2 ^ 32 == low % 2 ^ 32)

/-- The number of the request whose pending commit a sequence holds, where a record names it by channel and low half (R224, R301). -/
def Part.pendByLow (x : Part) (chan low : Nat) : Option Nat :=
  x.seqs.findSome? (fun q => if q.chan = chan then
    q.pend.bind (fun e => if e.1 % 2 ^ 32 = low % 2 ^ 32 then some e.1 else none) else none)

/-- A record's decision with the full numbers of the requests that it names (R301). -/
def Part.fullNumbers (x : Part) (d : Decision) : Decision :=
  let full (chan low : Nat) : Nat := match x.reqByLow chan low with
    | some r => r.reqSeq
    | none => (x.pendByLow chan low).getD low
  { d with
    decodes := d.decodes.map (fun e => (e.1, e.2.1, full e.1 e.2.2.1, e.2.2.2))
    chunks := d.chunks.map (fun e => (e.1, full e.1 e.2.1, e.2.2))
    specs := d.specs.map (fun e => (e.1, e.2.1, full e.2.1 e.2.2.1, e.2.2.2)) }

/-- What a record says is done to the partition's tables: events, admissions, the harvests of pausing sequences, and the placing, commits
and copies of the step's work (R153, R187, R196, R222, R345); the decision with its full numbers. -/
def State.takeRecord (s : State) (p : Nat) (d : Decision) : Decision × State :=
  let s := d.events.foldl (fun s e => s.applyRecordEvent p e) s
  let s := (d.admits.foldl (fun s a => s.applyRecordAdmit p a) s).planPauses p d.model
  let d := (s.part p).fullNumbers d
  (d, (s.prelude p d).getD s)

/-- Sequences of the contexts that a record closed are given up again (R190, R475). -/
def State.closeAgain (s : State) (p : Nat) (d : Decision) : State :=
  (d.events.filter (fun e => e.1 == 2)).foldl (fun s e =>
    ((s.part p).seqs.filter (fun q => q.ctx == e.2.1)).foldl (fun s q => s.freeSequence p q) s) s

/-- Events and admissions of a stored record, applied again; frames to channel 0 and answers have gone out before, and the contexts stand
as their commands left them (R475). -/
def State.reapply (s : State) (p : Nat) (d : Decision) : Decision × State :=
  let f := partFn p
  let old := s.fn f
  let ctxs := (s.part p).ctxs
  -- commands that the record applies come back from the log of channel 0 (R283, R311)
  let logged := (old.in_ 0).entries.filterMap (fun e =>
    let c : Cmd := { seq := e.seq, payload := e.frame.drop 32, tick := e.tick }
    if isBFrame e.frame then some c else none)
  let s := s.onFn f (fun x => { x with bcmds := logged })
  let (full, s) := s.takeRecord p d
  let s := s.closeAgain p d
  (full, (s.onPart p (fun x => { x with ctxs := ctxs })).onFn f (fun x => { x with
    cmds := old.cmds, bcmds := old.bcmds, open_ := old.open_, answers := old.answers
    egress := x.egress.filter (fun g => g.chan != 0 || old.egress.contains g), outch := Sp.set {} x.outch 0 (old.out 0) }))

/-- A step is released again from its record (R196, R475); a bad record fails the partition (R285). -/
def State.releaseLogged (s : State) (p : Nat) : State :=
  let step := (s.part p).step
  match s.readDecision p step with
  | (none, s) => s
  | (some items, s) =>
    let (d, s) := s.reapply p (LogRec.toDecision step items)
    let s := (s.planSets p d.pics).submitJobs p
    (s.onPart p (fun x => { x with decision := some d, evts := [] })).releaseDecision p d

/-- The events of a boundary (R190, R193, R266): contexts closed at an earlier one begin their scrub, then come the events accepted by tb,
the expiries, the refusals that no model's turn makes, and the submission of encode jobs. -/
def State.openBoundary (s : State) (p tb : Nat) : State :=
  let s := if (s.part p).bopen then s else s.scrubClosed p
  ((((s.boundaryEvents p tb).applyExpiries p tb).refuseStray p tb).submitJobs p).onPart p (fun x => { x with
    rebuildTo := none, tb := tb })

/-- BOUNDARY_PROCEDURE (R193): a step whose record stands in the log is released from it (R196, R475); otherwise the boundary's events,
admission and plan make a new one. A boundary goes on, with its tb, until its step is released (R204); one that finds no work is idle, and
the next run begins another (log 28). -/
def execBoundaryProcedure (p : Nat) (s : State) : Out :=
  let x := s.part p
  if !x.present || x.st != .boundary || x.scrub || x.recover == 2 || s.bru.depth == 2 || s.bru.halted then .next s
  else if x.failed then .next (s.failRequests p)
  else if s.holdsRelease p || s.bru.rebuilding.contains p then .next s
  else match x.decision with
  | some d => .next (s.releaseDecision p d)
  | none =>
    if x.recorded x.step then .next (s.releaseLogged p)
    else if !s.decides p then .next s
    else
      let tb := if x.bdone then s.now else x.tb
      let s1 := s.openBoundary p tb
      match (s1.part p).nextModel tb with
      | none => .next (s1.onPart p (fun x => { x with bdone := true, bopen := false }))
      | some m =>
        let s1 := s1.onPart p (fun x => { x with bdone := false, bopen := true })
        if s1.underScrub p then .next s1
        else match s1.planStep p m tb with
        | some s2 => .next s2
        | none => .next s

/-- A buffer set filled with +0 in every channel (R264). -/
def State.zeroSet (s : State) (c : VidCtx) (set : Nat) : State :=
  match (s.tenant (s.part c.part).tenant).key with
  | none => s
  | some key =>
    let a := coldAddr (Vid.setBase c.params set)
    let n := Vid.setPages c.params * pageBytes
    (s.setMem (fun m => { m with cold := Memory.clear m.cold a n, ddrErr := Sp.clear m.ddrErr (a / 32) (n / 32) })).coldKeyed key a n

/-- The buffer set that a standby floods for a picture of a record: the one that its shaper filled, or for a picture that it dropped a
free one filled with +0, which raises VIDEO_STREAM (R264). -/
def State.applyRecordPic (s : State) (p : Nat) (e : Nat × Nat × Nat) : (Nat × Nat × Nat) × State :=
  match s.findVctx p e.1 with
  | none => (e, s)
  | some (k, j, c) =>
    let d := { c with shaped := c.shaped.filter (fun q => decide (q.1 > e.2.2)) }
    match c.shaped.find? (fun q => q.1 == e.2.2) with
    | some (_, some set) => ((e.1, set, e.2.2), s.setVctx k j (some d))
    | some (_, none) =>
      let s := s.raise 24 2 7 0 p (locVideo k j) e.2.2
      (match (List.range (Vid.nbuf c.params)).find? (fun i => !c.used.contains i) with
      | some set => ((e.1, set, e.2.2), (s.zeroSet c set).setVctx k j (some { d with used := c.used ++ [set] }))
      | none => (e, s.setVctx k j (some d)))
    | none => (e, s)

/-- The pictures of a record, with the standby's own buffer sets (R264). -/
def State.recordPics (s : State) (p : Nat) (pics : List (Nat × Nat × Nat)) : List (Nat × Nat × Nat) × State :=
  pics.foldl (fun (a : List (Nat × Nat × Nat) × State) e =>
    let (own, s) := a.2.applyRecordPic p e
    (a.1 ++ [own], s)) ([], s)

/-- STANDBY_RELEASE: the record of the partition's next step is executed when it is logged, the step before it is committed
and its frames are accepted (R264, R345), unless a command waits for the boundary (R494). -/
def execStandbyRelease (p : Nat) (s : State) : Out :=
  let x := s.part p
  let role := s.pair.st == .standby || s.pair.st == .active
  match x.held with
  | [] => .next s
  | d :: t =>
    if !x.present || x.failed || x.st != .boundary || x.decision.isSome || x.recover == 2 || s.holdsRelease p || !role
        || d.step != x.step || !s.framesHeld p d || !s.picturesHeld p d then .next s
    else
      let (d, s) := (s.scrubClosed p).takeRecord p d
      let (pics, s) := s.recordPics p d.pics
      let d := { d with pics := pics }
      let s := (((s.planSets p pics).submitJobs p).planCheckpoint p).onPart p (fun x => { x with held := t, decision := some d, evts := [] })
      .next (s.releaseDecision p d)

/-- REPLAY: a stopped partition is aborted and its step released again from its decision record; a failed one is aborted
only, and a rebuild waits for REBUILD (R71, R203, R471 to R473). -/
def execReplay (p : Nat) (s : State) : Out :=
  let x := s.part p
  if x.st != .stopped then .next s
  else if x.recover = 2 then .next s
  else
    let s := s.abort p
    if x.failed then .next s
    else match x.decision with
    | none => .next s
    | some d =>
      -- the record's numbers are 32 bits; the decision at hand holds their extension (R301)
      match s.readDecision p x.step with
      | (none, s) => .next s
      | (some _, s) => .next (s.releaseDecision p d)

/-- A page of the partition is freed: no list names it any more, it is filled with zero and its GEN advances (R154, R155, R475). -/
def State.freeWhole (s : State) (row : Nat) : State :=
  let e := s.pte row
  let held := Pte.state e == Pte.live || Pte.state e == Pte.sealed_
  (if held then s.setPte row (putFld e 7 2 Pte.scrub) else s).fillDone row

/-- Restores a partition's pages and tables: every page is freed, the entries of the checkpoint come back by RESTORE with the bytes of its set,
and plates, tables and weights come again from their images; without a checkpoint there is nothing but these (R154, R156, R475). -/
def State.restoreSet (s : State) (p : Nat) (c : Option Checkpoint) : State :=
  let x := s.part p
  let s := x.rowsOf.foldl State.freeWhole s
  let s : State := match c with
    | none => s.onPart p (fun x => { x with reqs := [], seqs := [], endedReqs := [] })
    | some c =>
      let s := (c.ptes.filter (fun e => Pte.state e.2 == Pte.live || Pte.state e.2 == Pte.sealed_)).foldl
        (fun (s : State) e => s.setPte e.1 (ptEntry 8 (s.pte e.1) e.2)) s
      let s := c.bytes.foldl (fun (s : State) e => s.panWrite e.1 [e.2]) s
      s.onPart p (fun x => { x with reqs := c.reqs, seqs := c.seqs, endedReqs := c.ended })
  let outs := match c with | some c => c.outs | none => (List.range 255).map (fun i => (i + 1, 0))
  let s : State := s.onFn (partFn p) (fun f => outs.foldl (fun (f : Fn) (e : Nat × Nat) => f.setOut e.1 { f.out e.1 with next := e.2 }) f)
  x.imgPages.foldl (fun (s : State) e => match e.2 with
    | some (entry, b) => (s.panWrite (e.1 * pageBytes) b).setPte e.1 entry
    | none => s) s

/-- A frame that a step of the partition consumes: OPEN, CANCEL or DATA (R284). -/
def stepInput (frame : Bytes) : Bool := 3 ≤ Fr.typ frame && Fr.typ frame ≤ 5

/-- Input entries from a position on are no longer consumed, and the requests and cancels among them that the tables do not hold wait
again; NAL units that a decoder has taken stay consumed (R284, R475). -/
def State.requeue (s : State) (p : Nat) (pos : Nat → Nat) : State :=
  let f := partFn p
  let s := s.onFn f (fun x => { x with inch := x.inch.map (fun e => (e.1, { e.2 with entries := e.2.entries.map (fun t =>
    if pos e.1 ≤ t.seq ∧ stepInput t.frame then { t with used := (s.part p).endedReqs.contains (e.1, t.seq), taken := false } else t) })) })
  let waiting := (s.fn f).inch.flatMap (fun e => (e.2.entries.filter (fun t => !t.used)).map (fun t => (e.1, t)))
  waiting.foldl (fun s w =>
    let t := w.2
    if Fr.typ t.frame = 3 then
      if ((s.part p).req w.1 t.seq).isSome then s
      else s.onPart p (fun x => { x with reqs := x.reqs ++ [{
        chan := w.1, reqSeq := t.seq, ctx := Fr.ctx t.frame, params := t.frame.drop 32, accTick := t.tick }] })
    else if Fr.typ t.frame = 4 then
      let c := (w.1, extend32 t.seq (u32 t.frame 32), t.tick)
      s.onPart p (fun x => { x with cancels := addOnce c x.cancels })
    else s) s

/-- Input queues are set to the positions of the commit record of a step, or to the oldest entry held (R475). -/
def State.rewindInputs (s : State) (p : Nat) (step : Option Nat) : State :=
  let items := match (s.part p).recs.find? (fun r => r.commit && some r.step == step) with
    | some r => r.items.filter (fun i => u8 i 0 == 8)
    | none => []
  s.requeue p (fun c => match items.find? (fun i => u8 i 1 == c) with | some i => u64 i 8 | none => 0)

/-- The new firmware answers FW_ACTIVATE once the stop of compute has ended (R443). -/
def State.answerActivate (s : State) : State :=
  match s.fw.activate with
  | some q =>
    if s.bru.depth = 0 ∧ s.bru.rebuilding.isEmpty ∧ s.bru.isReady then
      { s with fw := { s.fw with activate := none } }.respond 0 q 0x0705 0 []
    else s
  | none => s

/-- REBUILD: the partition's pages and tables come back from the checkpoint, and its steps up to the last committed one are
released again from their records by the boundaries that follow (R388, R471, R475). -/
def execRebuild (p : Nat) (s : State) : Out :=
  let x := s.part p
  let asked := (x.st != .released && x.recover == 2) || s.bru.rebuilding.contains p
  if !x.present || x.failed || !asked then .next s
  else
    -- a step whose commit record the log holds stays committed (R389)
    let s := if x.st == .complete && x.commitRec then (s.onPart p (fun x => { x with st := .boundary })).commitStep p else s
    let s := if (s.part p).st == .boundary then s else s.abort p
    let x := s.part p
    let c := x.ckpts.getLast?
    let first := match c with | some c => c.step + 1 | none => 0
    let s := s.restoreSet p c
    let s := s.rewindInputs p (c.map (·.step))
    let s := s.onPart p (fun y => { y with
      step := first, decision := none, st := .boundary, recover := 0, pendCkpt := none, plan := {}, evts := []
      bdone := false, bopen := false, rebuildTo := if first < x.step then some (x.step - 1) else none })
    .next { s with
      bru := { s.bru with rebuilding := s.bru.rebuilding.filter (· ≠ p) }
      fw := { s.fw with waiting := s.fw.waiting.filter (· ≠ p) } }.answerActivate

-- End of a scrub (R190, R248, R435, R436).

/-- No page of the partition is being scrubbed. -/
def State.scrubDone (s : State) (p : Nat) : Bool := (s.part p).rowsOf.all (fun r => Pte.state (s.pte r) != Pte.scrub)

/-- SCRUB_COMPLETE: once every page is FREE the resource may be assigned again and its command is answered (R435). -/
def execScrubComplete (what : Scrub) (s : State) : Out :=
  if !s.scrubs.contains what then .next s
  else
    let off (s : State) : State := { s with scrubs := s.scrubs.filter (fun w => w != what) }
    match what with
    | .ctx p c =>
      if !s.scrubDone p then .next s
      else
        let x := s.part p
        let s := x.realloc.foldl (fun s e =>
          s.setPte e.1 (Pte.make (Pte.fmt e.2) Pte.data Pte.live p 0 0 (Pte.gen (s.pte e.1)) (Pte.tag e.2))) s
        let s := (off s).onPart p (fun x => { x.setCtx c {} with realloc := [] })
        match (x.ctx c).closeCmd with
        | some q => .next (s.respond (partFn p) q 0x0302 0 [])
        | none => .next s
    | .part p =>
      if !s.scrubDone p then .next s
      else
        let x := s.part p
        let s := x.blocks.foldl (fun s b => s.onBlock b (fun k => { k with on := false })) (off s)
        let s := s.setPart p {}
        match x.deleteCmd with
        | some q => .next (s.respond 0 q 0x0106 0 [])
        | none => .next s
    | .pair k =>
      let x := s.vpair k
      let s := (off s).setVpair k {}
      match x.releaseCmd with
      | some q => .next (s.respond 0 q 0x0108 0 [])
      | none => .next s

end Sys2Proof.Machine
end

