-- ==== Sys2Proof/Machine/PartReset.lean ====
section
/-!
DEFINITION. The reset of one partition and what the deeper resets share with it (R316, R387, R389, R390, R392).
-/
namespace Sys2Proof.Machine

/-- Every command of a function that has started and not been answered is answered SUPERSEDED (R312, R313, R316, R390). -/
def State.supersede (s : State) (f : Nat) (cs : List Cmd) : State :=
  cs.foldl (fun s c => s.respond f c.seq c.opc 0x010A []) s

/-- The commands that a partition's function has in progress end, answered SUPERSEDED: a command that waits for its boundary is not
applied, an unload that waits for a commit does not
happen, a video context that was to close stays open, and a context that closes closes unanswered (R316). -/
def State.endCommands (s : State) (p : Nat) : State :=
  let f := partFn p
  let s := s.supersede f ((s.fn f).open_ ++ (s.fn f).bcmds)
  let s := s.onPart p (fun x => { x with unloads := [], ctxs := x.ctxs.map (fun e => (e.1, { e.2 with closeCmd := none })) })
  (List.range 32).foldl (fun s i => match s.vctx (i / 8) (i % 8) with
    | some v => if v.part = p then s.setVctx (i / 8) (i % 8) (some { v with closeCmd := none }) else s
    | none => s) s

/-- Staging stores, vector registers, accumulators, event channels, queues, segment buffers and bind sets of the partition's
cells are reset (R387). -/
def State.resetCells (s : State) (x : Part) : State :=
  x.cells.foldl (fun s n =>
    let s := s.ssClear (262144 * n) 262144
    let s := s.setMem (fun m => { m with
      acc := Sp.clear m.acc (8192 * n) 8192
      vreg := Sp.clear m.vreg (4096 * n) 4096
      bind := Sp.clear m.bind (131072 * n) 131072 })
    s.onCell n (fun c => { c with segBuf := [], queues := [], ops := [], tokens := [], grants := [], intTiles := [] })) s

/-- A partition reset (R387, R392): a step whose commit record is acknowledged stays committed (R389); the state returns to
BOUNDARY, and the step at hand is released again from its record. -/
def State.partitionReset (s : State) (p : Nat) : State :=
  let x := s.part p
  if !x.present then s
  else
    let s := if x.st == .complete && x.commitRec then s.commitStep p else s
    let s := if x.st == .released && x.reflex then s.dropReflex else s
    let s := (s.resetCells x).resetTaken (partFn p)
    -- a load ends, and no handle is created (R107)
    let s := s.onFn (partFn p) (fun f => { f with images := [] })
    s.onPart p (fun y => { y with
      st := .boundary, err := 0, dl := 0, armed := false, trk := 0, trkDdr := 0, barriers := [], lastBid := 0, quiet := 0
      seqq := [], endWait := false, issued := false, prefetch := [], pinBuf := [], outTaken := [], handles := [], bopen := false
      recover := if y.recover = 2 then 2 else 0 })

/-- PARTITION_RESET: FLR of the function, or Dome firmware (R387). -/
def execPartitionReset (p : Nat) (s : State) : Out :=
  .next (if p < 16 then s.partitionReset p else s)

end Sys2Proof.Machine
end

