-- ==== Sys2Proof/Machine/HostPort.lean ====
section
/-!
DEFINITION. Host ports (R290 to R310, R316, R395, R493): the aperture and its input buffer, acceptance of frames, the input
log, the receive rings with interrupts and status blocks, per-function reset and configuration requests.
-/
namespace Sys2Proof.Machine

-- The aperture (R294 to R296).

/-- Held words from D upward go to the input buffer, or are discarded while alignment is lost (R294, R296). -/
def HostPort.drain : Nat → HostPort → HostPort
  | 0, x => x
  | k + 1, x =>
    match Sp.get none x.words x.pos with
    | none => x
    | some w =>
      HostPort.drain k { x with
        words := Sp.set none x.words x.pos none, pos := (x.pos + 8) % 2 ^ 32
        inbuf := if x.desync then x.inbuf else x.inbuf ++ le 8 w.toNat }

/-- C and D as they stand are shown: vector 1 signals a credit that advanced while a host write was held off, and the status
block follows each change (R295, R307, R308). -/
def State.credit (s : State) (h f : Nat) (d0 : Nat) : State :=
  let x := s.hp h f
  let c := x.limit
  let s := s.setHp h f { x with credit := c, heldOff := if c = x.credit then x.heldOff else false }
  let s := if c ≠ x.credit ∧ x.heldOff ∧ bit x.ctl 2 then s.signal h f 1 else s
  if c ≠ x.credit ∨ x.pos ≠ d0 then s.statusBlock h f else s

/-- One aligned word at an aperture offset: held, or discarded and counted (R294). -/
def State.apWord (s : State) (h f off : Nat) (w : BitVec 64) : State :=
  let x := s.hp h f
  let dist := (off + 4096 - x.pos % 4096) % 4096
  let at_ := (x.pos + dist) % 2 ^ 32
  let room := (x.credit + 2 ^ 32 - x.pos) % 2 ^ 32
  if dist < room ∧ (Sp.get none x.words at_).isNone then
    s.setHp h f { x with words := Sp.set none x.words at_ (some w) }
  else
    (s.setHp h f { x with disc := sat32 (x.disc + 1), heldOff := x.heldOff || decide (room ≤ dist) }).hpFlag h f 1

/-- APERTURE_WRITE: whole aligned words are taken within the credit and drain in stream order; during a compute reset none
drains (R294, R295, R390). -/
def execApertureWrite (port f off : Nat) (data : Bytes) (s : State) : Out :=
  if port > 1 ∨ f > 16 ∨ off + data.length > 4096 then .next s
  else
    let first := roundUp off 8
    let n := (off + data.length - first) / 8
    let d0 := (s.hp port f).pos
    let s := (List.range n).foldl (fun s i =>
      let o := first + 8 * i
      s.apWord port f o (BitVec.ofNat 64 (leNat (slice data (o - off) 8)))) s
    if s.bru.depth = 2 then .next s
    else .next ((s.onHp port f (HostPort.drain 513)).credit port f d0)

/-- HP_AP_RESET: held words and unparsed bytes are discarded, and D is 0 (R296). -/
def execHpApReset (port f : Nat) (s : State) : Out :=
  if port > 1 ∨ f > 16 then .next s
  else
    let d0 := (s.hp port f).pos
    .next ((s.onHp port f (fun x => { x with words := [], inbuf := [], cut := false, pos := 0, desync := false, heldOff := false })).credit
      port f d0)

-- Ring registers.

/-- A ring of a port is enabled, and the latency tolerance message that a change of it brings (R290). -/
def State.ringsOn (s : State) (h : Nat) : Bool := (List.range 17).any (fun f => bit (s.hp h f).ctl 0)
def State.ltrAfter (s : State) (h : Nat) (before : Bool) : State :=
  if s.ringsOn h == before then s else s.out (.ltr h (if before then none else some 5))

/-- RING_EN_WRITE: a write of HP_CTL; a 1 in RING_EN is discarded unless HP_RING_SIZE holds 16 to 28, and setting it sets
TAIL to HEAD (R293). Enabling vector 0 signals frames already pending (R308). -/
def execRingEnWrite (port f : Nat) (v : Word) (s : State) : Out :=
  if port > 1 ∨ f > 16 then .next s
  else
    let x := s.hp port f
    let old := bit x.ctl 0
    let en := if bit v 0 then (if 16 ≤ x.size ∧ x.size ≤ 28 then true else old) else false
    let on := s.ringsOn port
    let s := s.setHp port f { x with ctl := word (fld v 1 3 * 2 + b2n en), tail := if en && !old then x.head else x.tail }
    .next (((if en && !old then s.statusBlock port f else s).ltrAfter port on).ringJudge port f)

/-- HP_RING_HEAD_WRITE: the byte position that the host has consumed (R293, R305). -/
def execHpRingHeadWrite (port f : Nat) (v : Word) (s : State) : Out :=
  if port > 1 ∨ f > 16 then .next s else .next (s.onHp port f (fun x => { x with head := v.toNat }))

-- Frames in (R302 to R304, R311, R493).

/-- The GCM nonce of a frame (R309). -/
def frameNonce (seq chan func : Nat) (outbound : Bool) (port : Nat) (ctrl : Bool) : Bytes :=
  le 8 seq ++ bytes [chan, func, b2n outbound + 2 * port + 4 * b2n ctrl, 0]

/-- Bytes of the parameter layout of a command (R309, R310, R314, R337, R363, R430, R441); 8 for a code without one. -/
def cmdLayout (b : Bytes) : Nat :=
  match u16 b 0 with
  | 0x0001 => 0x0A | 0x0002 => 0x28 | 0x0003 => 9
  | 0x0101 => 9 | 0x0102 => 9 | 0x0103 => 0x0B | 0x0104 => 0x14 | 0x0105 => 0x20 | 0x0106 => 9 | 0x0107 => 0x0A
  | 0x0108 => 9 | 0x0109 => 0x10
  | 0x0201 => 0x14 | 0x0202 => 0x0B | 0x0203 => 0x0C
  | 0x0301 => 0x14 | 0x0302 => 9 | 0x0303 => 0x18 | 0x0304 => 0x10
  | 0x0401 => 0x10 | 0x0402 => 0x11 | 0x0403 => 0x0C | 0x0404 => 0x0C | 0x0405 => 0x0C | 0x0406 => 0x0C | 0x0407 => 0x0C
  | 0x0501 => 0xC8 + 16 * u8 b 0x24 * (u8 b 0x25 + 1)
  | 0x0502 => 9 | 0x0503 => 0x50 | 0x0504 => 0x0A | 0x0505 => 0x50
  | 0x0601 => 0x90 | 0x0602 => 9 | 0x0603 => 9
  | 0x0701 => 0x10 | 0x0702 => 0x11 | 0x0705 => 9
  | 0x0801 => 0x18 | 0x0804 => 0x18 | 0x0806 => 0x10
  | 0x0901 => 0x2A
  | _ => 8

/-- Fixed part of the payload that a type requires (R302). -/
def fixedPart (typ : Nat) : Nat :=
  match typ with | 1 => 8 | 3 => 64 | 4 => 16 | 6 => 8 | 0x0F => 16 | _ => 0

/-- A frame as it stands in the input buffer: header, padded payload, tag. -/
structure InFrame where
  raw : Bytes := []
  port : Nat := 0
  func : Nat := 0
  deriving DecidableEq, Repr

def InFrame.enc (x : InFrame) : Bool := (Fr.flags x.raw).testBit 4
def InFrame.body (x : InFrame) : Bytes := Fr.payload x.raw

/-- HELLO and SESSION travel in clear (R302, R309). -/
def InFrame.isHello (x : InFrame) : Bool := Fr.typ x.raw == 1 && !x.enc && u16 x.body 0 == 1
def InFrame.isSession (x : InFrame) : Bool := Fr.typ x.raw == 1 && !x.enc && u16 x.body 0 == 2

/-- Checks 1 to 7 of R302: the reason, or the payload's plaintext. -/
def State.frameHead (s : State) (x : InFrame) : Except Nat Bytes :=
  let b := x.raw
  let t := Fr.typ b
  let ch := Fr.chan b
  let open_ := x.isHello || x.isSession
  let hp := s.hp x.port x.func
  let verOk := (x.isHello && Fr.ver b == 0) || (Fr.ver b == hp.vsel && hp.vsel != 0)
  let typeOk := if t = 1 then ch == 0
    else if t = 0x0F then ch == 0 && x.func != 0
    else [3, 4, 5, 6].contains t && ch != 0 && x.func != 0
  let allowed := 16 + (if t = 6 then 64 else 0)
  if Fr.plen b < fixedPart t then .error 1
  else if !verOk then .error 2
  else if !typeOk then .error 3
  else if !Fr.reservedOk b || Fr.flags b &&& allowed != Fr.flags b || u64 b 20 != 0 then .error 4
  else if open_ then .ok x.body
  else if x.func != 0 && !(s.part (x.func - 1)).valid then .error 5
  else match hp.session with
  | none => .error 6
  | some k =>
    if !x.enc then .error 6
    else
      let pad := roundUp (Fr.plen b) 8
      match Crypto.gcmOpen k.inKey (frameNonce (Fr.seq b) ch x.func false x.port false) (b.take 32) x.body
          (slice b (32 + pad) 16) with
      | none => .error 7
      | some pt => .ok pt

/-- Checks 8 and 9 of R302, with R343 and R346 for MIRROR. -/
def State.framePayload (s : State) (x : InFrame) (pt : Bytes) : Option Nat :=
  match Fr.typ x.raw with
  | 1 => if pt.length < cmdLayout pt then some 1 else if !allZero pt 2 6 then some 4 else none
  | 4 => if allZero pt 4 12 then none else some 4
  | 6 => if allZero pt 1 3 then none else some 4
  | 0x0F =>
    let k := u8 pt 0
    if k = 0 ∨ 6 ≤ k ∨ !allZero pt 1 3 ∨ s.pair.st == .active
      ∨ (s.pair.st == .standby && k == 1 && decide (u32 pt 4 < s.pair.term)) then some 4 else none
  | _ => none

/-- The stream entry that a log write's origin names: 2 and up are the stream entries, 0 and 1 the host ports (R326, R328). -/
def streamOf (origin : Nat) : Option Nat := if origin ≤ 1 then none else some (origin - 2)

/-- Units of 64 bytes that a frame's log entry takes (R282). -/
def logUnits (frame : Bytes) : Nat := (32 + frame.length + 63) / 64

/-- Units of a ring. -/
def Ring.units (r : Ring) : Nat := r.pages * 2048

/-- Next expected number, with the frames whose log writes are under way (log 11). -/
def InChan.expected (c : InChan) : Nat := match c.writing.getLast? with | some w => wrap64 (w.1 + 1) | none => c.next

/-- Room in the ring for one more entry (R283). -/
def InChan.fits (c : InChan) (frame : Bytes) : Bool :=
  decide (c.ring.head + c.writing.foldl (fun a w => a + logUnits w.2.1) 0 + logUnits frame ≤ c.ring.rel + c.ring.units)

/-- A repeated CMD: its stored RESP again, nothing while it is unanswered, or STATE when it is older (R311). -/
def State.repeatCmd (s : State) (f seq opc : Nat) : State :=
  let x := s.fn f
  let waiting := (x.cmds ++ x.bcmds ++ x.open_).any (fun c => c.seq == seq)
    || (x.in_ 0).writing.any (fun w => w.1 == seq)
  match x.answers.find? (fun a => a.1 == seq) with
  | some (_, pl) => s.sendOut f 2 0 0 0 pl seq
  | none => if waiting then s else s.sendOut f 2 0 0 0 (respPayload opc 0x0104 []) seq

/-- A frame that passes checks 1 to 9: checks 10 to 13, and what follows (R302 to R304, R493). -/
def State.sequenceFrame (s : State) (x : InFrame) (pt : Bytes) : State :=
  let f := x.func
  let ch := Fr.chan x.raw
  let seq := Fr.seq x.raw
  let frame := x.raw.take 32 ++ pt
  let cmd : Cmd := { seq := seq, port := x.port, payload := pt, tick := s.now }
  if x.isHello || x.isSession then s.onFn f (fun y => { y with cmds := y.cmds ++ [cmd] })
  else if f = 0 then
    let next := (s.fn 0).cmdNext
    if seq < next then s.repeatCmd 0 seq (u16 pt 0)
    else if seq > next then s.sendNack x.port 0 0 9 seq
    else s.onFn 0 (fun y => { y with cmdNext := wrap64 (next + 1), cmds := y.cmds ++ [cmd] })
  else
    let c := (s.fn f).in_ ch
    if !c.configured then s.sendNack x.port f ch 8 seq
    else if seq < c.expected then
      let s := if Fr.typ x.raw = 1 then s.repeatCmd f seq (u16 pt 0) else s
      s.sendAccept x.port f ch c.next
    else if seq > c.expected then s.sendNack x.port f ch 9 seq
    else if !c.fits frame then s.sendNack x.port f ch 10 seq
    else s.onIn f ch (fun c => { c with writing := c.writing ++ [(seq, frame, x.port)] })

/-- A HELLO or SESSION of the port waits for its answer: the frames drained after it stand under the version and session that it leaves,
and are judged then (R310). -/
def State.helloWaits (s : State) (port f : Nat) : Bool := (s.fn f).cmds.any (fun c => c.outside && c.port == port)

/-- The next whole frame of the input buffer is judged (R296, R302). -/
def State.receiveFrame (s : State) (port f : Nat) (only : Bytes → Bool) : State :=
  let x := s.hp port f
  let b := x.inbuf
  if b.length < 32 || s.helloWaits port f then s
  else if Fr.plen b > 65535 then
    let s := s.sendNack port f (Fr.chan b) 1 (Fr.seq b)
    let s := (s.onHp port f (fun x => { x with desync := true, inbuf := [], cut := false })).hpFlag port f 0
    s.credit port f x.pos
  else
    let len := 32 + roundUp (Fr.plen b) 8 + (if (Fr.flags b).testBit 4 then 16 else 0)
    if b.length < len || !only (b.take len) then s
    else
      let fr : InFrame := { raw := b.take len, port := port, func := f }
      let s := (s.onHp port f (fun x => { x with inbuf := x.inbuf.drop len, cut := false })).credit port f x.pos
      if x.cut then s
      else match s.frameHead fr with
      | .error r => s.sendNack port f (Fr.chan b) r (Fr.seq b)
      | .ok pt =>
        let s := if fr.enc then s.onHp port f (fun x => { x with
            session := x.session.bind (fun k => if k.inCount + 1 ≥ 2 ^ 32 then none else some { k with inCount := k.inCount + 1 }) })
          else s
        match s.framePayload fr pt with
        | some r => s.sendNack port f (Fr.chan b) r (Fr.seq b)
        | none => s.sequenceFrame fr pt

/-- INBOUND_FRAME: the oldest whole frame of a function's input buffer on a port is checked and answered (R302 to R304). -/
def execInboundFrame (port f : Nat) (s : State) : Out :=
  if port > 1 ∨ f > 16 ∨ s.bru.depth = 2 then .next s else .next (s.receiveFrame port f (fun _ => true))

-- The input log (R282 to R284).

/-- The entry of a frame in its log ring (R282). -/
def logEntryBytes (epoch f chan tick : Nat) (frame : Bytes) : Bytes :=
  padTo 64 (le 2 0x4C47 ++ le 1 (epoch % 2) ++ le 1 f ++ le 4 frame.length ++ le 8 tick ++ le 4 (Fr.seq frame) ++ le 1 chan
    ++ zeros 3 ++ le 4 (Crypto.crc32c frame) ++ zeros 4 ++ frame)

/-- NAL units of an Annex B byte stream: what stands between start codes, without trailing zeros (R300). -/
def annexB (b : Bytes) : List Bytes :=
  let cut := b.foldl (fun (a : List Bytes × Bytes × Nat) (x : Byte) =>
    -- finished units, the unit at hand, zeros just seen
    if x = 1 ∧ a.2.2 ≥ 2 then (a.1 ++ [a.2.1.take (a.2.1.length - a.2.2)], [], 0)
    else (a.1, a.2.1 ++ [x], if x = 0 then a.2.2 + 1 else 0)) (([] : List Bytes), ([] : Bytes), 0)
  ((cut.1.drop 1) ++ (if cut.1.isEmpty then [] else [cut.2.1])).filter (fun n => !n.isEmpty)

/-- NAL units and markers reach the decoder of a video context; none is open: they are dropped (R253, R284). -/
def State.videoInput (s : State) (p vctx : Nat) (items : List NalItem) : State :=
  match s.findVctx p vctx with
  | some (k, j, c) => if c.isDecode && c.closeCmd.isNone then s.setVctx k j (some { c with input := c.input ++ items }) else s
  | none => s

/-- What the acceptance of a frame does beyond its log entry: commands, requests and cancels are queued, video goes to its
decoder, and a MIRROR DECISION is logged (R193, R284, R343, R345). -/
def State.deliver (s : State) (f chan port : Nat) (frame : Bytes) : State :=
  let p := f - 1
  let pt := frame.drop 32
  let seq := Fr.seq frame
  let now := s.now
  match Fr.typ frame with
  | 1 => s.onFn f (fun y => { y with cmds := y.cmds ++ [{ seq := seq, port := port, payload := pt, tick := now }] })
  | 3 => s.onPart p (fun x => { x with
      reqs := x.reqs ++ [{ chan := chan, reqSeq := seq, ctx := Fr.ctx frame, params := pt, accTick := now }] })
  | 4 =>
    let n := extend32 ((s.fn f).in_ chan).next (u32 pt 0)
    s.onPart p (fun x => { x with cancels := x.cancels ++ [(chan, n, now)] })
  | 6 =>
    let loss := if (Fr.flags frame).testBit 6 then [NalItem.loss] else []
    (s.videoInput p (u8 pt 0) (loss ++ (annexB (pt.drop 8)).map .nal)).useEntry f chan seq
  | 0x0F =>
    let s := s.useEntry f chan seq
    if u8 pt 0 = 1 then
      let rec_ := pt.drop 16
      let items := (List.range ((rec_.length - 32) / 16)).map (fun i => slice rec_ (32 + 16 * i) 16)
      let d := LogRec.toDecision (u64 pt 8) items
      match s.plogAppend p false d.step items with
      | some s => s.onPart p (fun x => { x with held := x.held ++ [d] })
      | none => s.onPart p (fun x => { x with held := x.held ++ [d] })
    else s.onFn f (fun y => { y with mirrors := y.mirrors ++ [pt] })
  | _ => s

/-- The oldest log write of a channel is acknowledged: its frame stands in the ring and is accepted in this tick (R280, R282, R283,
R303). -/
def State.ackEntry (s : State) (f c : Nat) : State :=
  let x := (s.fn f).in_ c
  match x.writing with
  | [] => s
  | (seq, frame, port) :: t =>
    let units := logUnits frame
    let r := x.ring
    let s := match (s.tenant (s.part (f - 1)).tenant).key with
      | some k => s.ringWrite k r (64 * r.head) (logEntryBytes (r.head / max 1 r.units) f c s.now frame)
      | none => s
    let e : LogEntry := { seq := seq, tick := s.now, pos := r.head, units := units, frame := frame, stream := streamOf port }
    let s := s.onIn f c (fun y => { y with
      next := wrap64 (seq + 1), ring := { y.ring with head := y.ring.head + units }, entries := y.entries ++ [e], writing := t })
    let s := if port ≤ 1 then s.sendAccept port f c (wrap64 (seq + 1)) else s
    s.deliver f c port frame

/-- LOG_ENTRY_ACK (R280, R283, R303). -/
def execLogEntryAck (f c : Nat) (s : State) : Out := .next (if f = 0 ∨ f > 16 then s else s.ackEntry f c)

-- Receive rings (R305 to R309).

/-- Ports that a frame at the head of egress is bound for: the port of a control frame, each enabled ring for channel 0, the
configured ports of an output channel (R306). -/
def State.targets (s : State) (f : Nat) (fr : OutFrame) : List Nat :=
  match fr.port with
  | some h => [h]
  | none =>
    if fr.chan = 0 then (List.range 2).filter (fun h => bit (s.hp h f).ctl 0)
    else
      let o := (s.fn f).out fr.chan
      if o.configured then (List.range 2).filter (fun h => o.ports.testBit h) else []

/-- A frame that is not written at all: its number lies below the watermark (R288), or the unit is STALE or ISOLATED and the
frame belongs to a paired partition's channels 1-255 (R338, log 33). -/
def State.withheld (s : State) (f : Nat) (fr : OutFrame) : Bool :=
  fr.port.isNone && (decide (fr.seq < ((s.fn f).out fr.chan).watermark)
    || (fr.chan != 0 && (s.pair.st == .stale || s.pair.st == .isolated) && decide (0 < f) && s.pair.pmask.testBit (f - 1)))

/-- A frame waits for a session on a port that it is bound for (R309). -/
def State.awaitsSession (s : State) (f : Nat) (fr : OutFrame) : Bool :=
  fr.port.isNone && (s.targets f fr).any (fun h => !fr.sent.contains h && (s.hp h f).session.isNone)

/-- The frame that a port takes next: the head of the egress, which holds the frames behind it (R306). The frames that need no
session pass a head that waits for one, or no SESSION could be answered (R309, log 42). -/
def State.nextOut (s : State) (h f : Nat) : Option OutFrame :=
  match (s.fn f).egress with
  | [] => none
  | fr :: rest =>
    let ready := (s.targets f fr).contains h && !fr.sent.contains h && (s.hp h f).session.isSome
    if s.awaitsSession f fr && !ready then some ((rest.find? (fun g => g.port == some h)).getD fr) else some fr

/-- A frame leaves a function's egress: its number moves the watermark, and the copy in the log follows it (R287). -/
def State.popEgress (s : State) (f : Nat) (fr : OutFrame) (written : Bool) : State :=
  s.onFn f (fun x =>
    let x := { x with egress := dropOne fr x.egress }
    let o := x.out fr.chan
    let mark := max o.watermark (fr.seq + 1)
    if written && fr.port.isNone then x.setOut fr.chan { o with watermark := mark, logMark := mark } else x)

/-- A frame is written to a port's ring under the session's outbound key: it carries ENC and a tag (R309). -/
def State.sealed (s : State) (h f : Nat) (fr : OutFrame) : Bool := (s.hp h f).session.isSome && fr.protectable

/-- Bytes of a frame in the ring of a port: padded to 64, encrypted under the session's outbound key; a frame bound for one
port is of the control class (R297, R305, R309). -/
def State.ringBytes (s : State) (h f : Nat) (fr : OutFrame) (pos : Nat) : Bytes :=
  let x := s.hp h f
  let phase := pos / 2 ^ x.size % 2
  let hdr (enc : Bool) : Bytes :=
    Fr.header fr.typ x.vsel fr.chan fr.ctx (fr.flags + 16 * b2n enc + 32 * phase) fr.seq fr.payload.length fr.ref
  match x.session with
  | some k =>
    if fr.protectable then
      let (ct, tag) := Crypto.gcmSeal k.outKey (frameNonce fr.seq fr.chan f true h fr.port.isSome) (hdr true) fr.payload
      padTo 64 (hdr true ++ ct ++ tag)
    else padTo 64 (hdr false ++ fr.payload)
  | none => padTo 64 (hdr false ++ fr.payload)

/-- Writes bytes of the ring: every byte after the first 32 before the header (R305). -/
def State.ringOut (s : State) (h addr : Nat) (b : Bytes) : State :=
  (s.out (.host h (addr + 32) (b.drop 32))).out (.host h addr (b.take 32))

/-- A frame written is pending until vector 0 signals it (R308). -/
def State.ringIrq (s : State) (h f : Nat) : State :=
  (s.onHp h f (fun x => { x with irqPend := x.irqPend + 1, irqTick := some (x.irqTick.getD s.now) })).ringJudge h f

/-- The frame, with any PAD before it, is written at TAIL; the counters, the status block and the interrupt follow (R305,
R307 to R309). -/
def State.writeRing (s : State) (h f : Nat) (fr : OutFrame) (pad : Nat) : State :=
  let x := s.hp h f
  let size := 2 ^ x.size
  let s := if pad = 0 then s
    else
      let hdr := Fr.header 0x11 x.vsel 0 0 (32 * (x.tail / size % 2)) 0 (pad - 32) 0
      s.ringOut h (x.base + x.tail % size) (hdr ++ zeros (pad - 32))
  let pos := (x.tail + pad) % 2 ^ 32
  let b := s.ringBytes h f fr pos
  let s := s.ringOut h (x.base + pos % size) b
  let sealed := s.sealed h f fr
  let last := (s.hp h f).endAfter == some fr.seq && fr.chan == 0 && fr.port.isNone
  let s := s.onHp h f (fun x => { x with
    tail := (pos + b.length) % 2 ^ 32
    nacks := if fr.typ = 0x0E then sat32 (x.nacks + 1) else x.nacks
    session := if last then none
      else if sealed then x.session.bind (fun k => if k.outCount + 1 ≥ 2 ^ 32 then none else some { k with outCount := k.outCount + 1 })
      else x.session
    endAfter := if last then none else x.endAfter })
  let s := if fr.typ = 0x0E then s.hpFlag h f 3 else s
  (s.statusBlock h f).ringIrq h f

/-- The PAD that a frame of `n` bytes needs before it in a port's ring, or none where the ring has no room (R305). -/
def HostPort.room (x : HostPort) (n : Nat) : Option Nat :=
  let size := 2 ^ x.size
  let left := size - x.tail % size
  let pad := if n > left then left else 0
  let used := (x.tail + 2 ^ 32 - x.head) % 2 ^ 32
  if used + pad + n > size then none else some pad

/-- The frame at the head of a function's egress waits on a port: for room in its ring (`some true`), or for the ring, its channel or a
session (R306, R309). -/
def State.ringWaits (s : State) (h f : Nat) : Option Bool :=
  match (s.fn f).egress with
  | [] => none
  | fr :: _ =>
    let x := s.hp h f
    let ts := s.targets f fr
    if s.withheld f fr || fr.sent.contains h || (!ts.isEmpty && !ts.contains h) then none
    else if ts.isEmpty || !bit x.ctl 0 || (fr.port.isNone && x.session.isNone) then some false
    else if (x.room (fr.ringBytes (s.sealed h f fr))).isNone then some true
    else none

/-- EGRESS_WRITE: the frame that a port takes next from a function's egress is written to its ring, if the ring is enabled, a session
exists where one is needed, and the ring has room; a frame on a full ring sets RING_FULL and waits (R288, R305, R306, R309). -/
def execEgressWrite (port f : Nat) (s : State) : Out :=
  if port > 1 ∨ f > 16 then .next s
  else match s.nextOut port f with
  | none => .next s
  | some fr =>
    if s.withheld f fr then .next (s.popEgress f fr false)
    else
      let x := s.hp port f
      let ts := s.targets f fr
      -- the ring that was still to come has been disabled since
      if !ts.isEmpty && ts.all (fun t => fr.sent.contains t) then .next (s.popEgress f fr true)
      else if !ts.contains port || fr.sent.contains port || !bit x.ctl 0 || (fr.port.isNone && x.session.isNone) then .next s
      else
        match x.room (fr.ringBytes (s.sealed port f fr)) with
        | none => .next (s.hpFlag port f 2)
        | some pad =>
          let s := s.writeRing port f fr pad
          let sent := port :: fr.sent
          if ts.all (fun t => sent.contains t) then .next (s.popEgress f fr true)
          else .next (s.onFn f (fun y => { y with egress := { fr with sent := sent } :: y.egress.drop 1 }))

/-- IRQ_DELAY_EXPIRY: the oldest pending frame has waited its delay (R308). -/
def execIrqDelayExpiry (port f : Nat) (s : State) : Out :=
  let x := s.hp port f
  let delay := fld x.irqMod 16 16
  match x.irqTick with
  | none => .next s
  | some t =>
    if port ≤ 1 ∧ f ≤ 16 ∧ delay ≠ 0 ∧ bit x.ctl 1 ∧ t + usTicks * delay ≤ s.now then
      .next ((s.setHp port f { x with irqPend := 0, irqTick := none }).signal port f 0)
    else .next s

-- Resets and configuration (R316, R395).

/-- The host-port state of a function on a port is reset (R316): aperture, ring registers, HP_CTL, VSEL, session, MSI-X; the status block
follows a change of TAIL, C or D (R307). -/
def State.resetHp (s : State) (h f : Nat) : State :=
  let x := s.hp h f
  let y : HostPort := {
    stat := x.stat, disc := x.disc, statusAddr := x.statusAddr, irqMod := x.irqMod, ringFull := x.ringFull, nacks := x.nacks }
  let t := s.setHp h f y
  (if (x.tail, x.credit, x.pos) = (y.tail, y.credit, y.pos) then t else t.statusBlock h f).ltrAfter h (s.ringsOn h)

/-- FLR: of a partition's function, the host-port state on both ports and a partition reset, with commands in progress
SUPERSEDED; of PF0, the host-port state of that port alone (R316). -/
def execFlr (port f : Nat) (s : State) : Out :=
  if port > 1 ∨ f > 16 then .next s
  else if f = 0 then .next (s.resetHp port 0)
  else
    let s := (s.resetHp 0 f).resetHp 1 f
    let s := s.endCommands (f - 1)
    .next (if s.bru.depth = 2 then s.onHp port f (fun x => { x with inFlr := true }) else s.partitionReset (f - 1))

/-- Vendor, device, subsystem vendor and subsystem IDs and the class code of a function (R291). -/
def identity (f : Nat) : List Nat := [0x1F3A, 0xE700, 0x1F3A, 0x0007, if f = 0 then 0x088000 else 0x120000]

/-- What a configuration read returns; registers that the spec does not name return nothing here (R290, R291). -/
def State.cfgRead (s : State) (h f : Nat) (r : CfgReg) : List Nat :=
  let x := s.hp h f
  match r with
  | .identity => identity f
  | .maxPayload => [x.mps]
  | .msixControl => [b2n x.msixOn, b2n x.msixMask]
  | .aerStatus => [x.aer]
  | .other => []

/-- Vectors that were pending under the function mask are signalled when it is gone (R290, R308). -/
def State.unmask (s : State) (h f : Nat) : State :=
  (List.range 4).foldl (fun s v =>
    let x := s.hp h f
    if x.msixOn && !x.msixMask && x.pba.testBit v && !bit (x.msixWord (4 * v + 3)) 0 then
      (s.setHp h f { x with pba := x.pba - 2 ^ v }).signal h f v
    else s) s

/-- What a configuration write changes: Max Payload Size to 128, 256 or 512, MSI-X Enable (bit 0) and Function Mask (bit 1), and AER status
bits by a 1 (R290). -/
def State.cfgWrite (s : State) (h f : Nat) (r : CfgReg) (v : Nat) : State :=
  match r with
  | .maxPayload => s.onHp h f (fun x => { x with mps := if [128, 256, 512].contains v then v else x.mps })
  | .msixControl => (s.onHp h f (fun x => { x with msixOn := v.testBit 0, msixMask := v.testBit 1 })).unmask h f
  | .aerStatus => s.onHp h f (fun x => { x with aer := x.aer ^^^ (x.aer &&& v) })
  | _ => s

/-- CONFIG_REQUEST: retried until phase 6 has ended, completed from then on, and by Forfort on PF0 (R290, R291, R395, R449). -/
def execConfigRequest (port : Nat) (req : CfgRequest) (s : State) : Out :=
  let f := req.f
  if port > 1 ∨ f > 16 then .next s
  else if !s.bru.ended.contains 6 && !(s.fw.forfort && f == 0) then .next (s.out (.config port f true []))
  else match req.write with
  | none => .next (s.out (.config port f false (s.cfgRead port f req.reg)))
  | some v => .next ((s.cfgWrite port f req.reg v).out (.config port f false []))

end Sys2Proof.Machine
end

