-- ==== Sys2Proof/Machine/Power.lean ====
section
/-!
DEFINITION. Power, droop and heat (R355 to R376): policies, power states, the cap and its floor, the shares, the phase
controller, the clamp, beat stretches and thermal limits. Estimates and sensor readings come with their commands (log 13,
log 18); 0.1 W, 0.1 °C, 10 mV and mA are the units of the operands.
-/
namespace Sys2Proof.Machine

/-- A quotient whose rounding the spec does not state (log 3). -/
def quot (num den : Nat) : Nat := num / den + (if num % den ≠ 0 ∧ Config.roundUp num den then 1 else 0)

-- Policies (R363, R375).

/-- Sum of a share over the partitions that exist, but for the reflex partition (R362). -/
def State.shareSum (s : State) (f : PartPower → Nat) : Nat :=
  ((List.range 16).map (fun p => let x := s.part p; if x.present && !x.reflex then f x.pw else 0)).sum

/-- The refusal of a policy, or none: FIELD, SHARE_SUM, REFLEX_FLOOR (R363). -/
def State.policyRefusal (s : State) (p ff fc pf pc : Nat) : Option Nat :=
  let x := s.part p
  let own := if x.present && !x.reflex then x.pw.pfloor else 0
  if !(ff ≤ fc && fc ≤ 15 && pf ≤ pc && pc ≤ 256) then some 0x0102
  else if !x.reflex && s.shareSum (·.pfloor) - own + pf > 256 then some 1
  else if x.reflex && ff < 6 then some 2
  else none

/-- A policy in force (R363). -/
def State.setPolicy (s : State) (p ff fc pf pc : Nat) : State :=
  s.onPart p (fun x => { x with pw := { x.pw with ffloor := ff, fceil := fc, pfloor := pf, pceil := pc } })

/-- PWR_POL_WRITE (R375). -/
def execPwrPolWrite (p : Nat) (v : Word) (s : State) : Out :=
  if p > 15 then .next s
  else
    let (ff, fc, pf, pc) := (fld v 0 4, fld v 4 4, fld v 8 9, fld v 17 9)
    match s.policyRefusal p ff fc pf pc with
    | some _ => .next (s.pstatFlag p 22)
    | none => .next (s.setPolicy p ff fc pf pc)

-- Points (R355, R356, R370).

/-- Voltage of each point in mV (R355). -/
def vfMillivolts (point : Nat) : Nat :=
  [550, 570, 590, 610, 630, 650, 670, 700, 715, 730, 750, 770, 800, 830, 865, 900].getD point 900

/-- V² × f of a point. -/
def vfWeight (point : Nat) : Nat := vfMillivolts point * vfMillivolts point * vfUnits point

/-- The limit that heat sets on a block (R372). -/
def Block.limit (b : Block) : Nat := if b.hot then 0 else b.tlimit

/-- A point change reaches a block: it is latched during a stretch, and limited by the block's own heat (R355, R370). -/
def Block.change (b : Block) (q : Nat) : Block :=
  let q := min q b.limit
  if b.stretch.isSome then { b with latched := some q } else { b with point := q }

/-- Every block of a partition changes to a point (R355, R370). -/
def State.changePoint (s : State) (p q : Nat) : State :=
  let s := (s.part p).blocks.foldl (fun s b => s.onBlock b (fun k => k.change q)) s
  s.onPart p (fun x => { x with pw := { x.pw with point := q } })

-- Power states (R357, R358).

/-- The exit latency of P3 in µs (R357). -/
def PartPower.exitLatency (w : PartPower) : Nat := max 90000 w.exit3

/-- The lowest point of a partition: the reflex partition never runs below point 6 (R329, R366). -/
def Part.lowPoint (x : Part) : Nat := if x.reflex then 6 else 0

/-- P0 to P1: point 0, and for the reflex partition its lowest point (R329, R358, R366, log 154). -/
def State.toP1 (s : State) (p : Nat) : State :=
  (s.changePoint p (s.part p).lowPoint).onPart p (fun x => { x with pw := { x.pw with st := .p1, idleAt := some s.now } })

/-- IDLE as written (R358). -/
def State.writeIdle (s : State) (p : Nat) (on : Bool) : State :=
  let w := (s.part p).pw
  if on then
    if w.idle then s
    else
      let s := s.onPart p (fun x => { x with pw := { x.pw with idle := true } })
      if w.st == .p0 && decide (1 ≤ w.tol) then s.toP1 p else s
  else if w.idle then s.clearIdle p else s

/-- What a cell loses when its block is off: everything but its ceilings, which the Watchtower keeps, its Pans' row replacements, and the
place where their patrol stopped (R59, R138, R139, R160, R357). -/
def State.cellOff (s : State) (n : Nat) : State :=
  let s := s.loseCell n
  let s := s.onCell n (fun c => { ({} : CellState) with
    fused := c.fused, aged := c.aged, ageTick := c.ageTick, nextOp := c.nextOp, ucode := c.ucode })
  let s := (List.range 4).foldl (fun s i => s.onPan (4 * n + i) (fun x => { ({} : PanState) with
    spare := x.spare, replaced := x.replaced, patrol := x.patrol })) s
  s.setMem (fun m => { m with
    panErr := Sp.clear m.panErr (128 * n * 16384) (128 * 16384)
    panOnce := Sp.clear m.panOnce (128 * n * 16384) (128 * 16384)
    ssErr := Sp.clear m.ssErr (32768 * n) 32768 })

/-- OFF written (R358): from P2 within the tolerance the block domains go off; otherwise PCTL_IGN. -/
def State.writeOff (s : State) (p : Nat) : State :=
  let x := s.part p
  if x.pw.st == .p2 && decide (x.pw.exitLatency ≤ x.pw.tol) then
    let s := x.cells.foldl (fun s n => s.cellOff n) s
    let s := x.blocks.foldl (fun s b => s.onBlock b (fun k => { k with on := false, stretch := none, latched := none, grants := [] })) s
    s.onPart p (fun x => { x with pw := { x.pw with st := .p3 } })
  else s.pstatFlag p 21

/-- A write of PWR_PCTL: IDLE, then OFF (R358, R375, log 36). -/
def State.writePctl (s : State) (p : Nat) (v : Word) : State :=
  let s := s.writeIdle p (bit v 0)
  if bit v 1 then s.writeOff p else s

/-- IDLE_WRITE (R358). -/
def execIdleWrite (p : Nat) (v : Word) (s : State) : Out := .next (if p < 16 then s.writePctl p v else s)

/-- OFF_WRITE (R358). -/
def execOffWrite (p : Nat) (v : Word) (s : State) : Out := .next (if p < 16 then s.writePctl p v else s)

/-- IDLE_HOLD_EXPIRY: IDLE held for 100 µs in P1 (R358). -/
def execIdleHoldExpiry (p : Nat) (s : State) : Out :=
  let w := (s.part p).pw
  match w.idleAt with
  | some t =>
    if w.st == .p1 && w.idle && decide (t + 100 * usTicks ≤ s.now) && decide (20 ≤ w.tol) then
      .next (s.onPart p (fun x => { x with pw := { x.pw with st := .p2 } }))
    else .next s
  | none => .next s

/-- P3_EXIT_DONE: the blocks are on again, and DONE_P3 is raised (R358, R457). -/
def execP3ExitDone (p : Nat) (s : State) : Out :=
  if (s.part p).pw.st == .p3 && (s.part p).pw.waking then
    .next (s.onPart p (fun x => { x with pw := { x.pw with st := .p0, waking := false, doneP3 := true } }))
  else .next s

/-- A tolerance in force: one that is lowered moves a P2 partition to P1, and a P1 partition to P0 (R358). -/
def State.setTol (s : State) (p tol : Nat) : State :=
  let s := s.onPart p (fun x => { x with pw := { x.pw with tol := tol } })
  let x := s.part p
  -- engines are idle after their block leaves P2 (R120)
  let s := if x.pw.st == .p2 && decide (tol < 20) then
      (x.cells.foldl (fun s n => s.onCell n (fun c => { c with lastTile := [] })) s).toP1 p
    else s
  if (s.part p).pw.st == .p1 && decide (tol < 1) then
    s.onPart p (fun x => { x with pw := { x.pw with st := .p0, idleAt := none } })
  else s

/-- PWR_TOL_WRITE (R358, R375). -/
def execPwrTolWrite (p : Nat) (v : Word) (s : State) : Out := .next (if p < 16 then s.setTol p v.toNat else s)

-- The cap (R361, R368, R374).

/-- Blocks of the reflex partition, and other blocks in P0 to P2. -/
def State.reflexBlocks (s : State) : Nat :=
  ((List.range 16).map (fun p => let x := s.part p; if x.reflex then x.blocks.length else 0)).sum
def State.otherBlocks (s : State) : Nat :=
  ((List.range 16).map (fun p => let x := s.part p; if !x.reflex && x.pw.st != .p3 then x.blocks.length else 0)).sum

/-- The cap floor F in W (R361). -/
def State.capFloor (s : State) : Nat := 200 + 30 * s.reflexBlocks + 4 * s.otherBlocks

/-- F rounded up, in 10 W. -/
def State.floorTens (s : State) : Nat := (s.capFloor + 9) / 10

/-- The applied cap; a cap below F is raised to it with CAP_RAISED and a POLICY_CONFLICT (R361). -/
def State.applyCap (s : State) : State :=
  let f := s.floorTens
  let cap := max s.power.capSet f
  let s := { s with power := { s.power with capNow := cap, floorNow := f } }
  if s.power.capSet < f then (s.pwrFlag 3).raise 17 0 0 0 255 0 cap else s

/-- The clamp: every block outside the reflex partition goes to point 0, and every step that runs carries CLAMP (R368). -/
def State.clamp (s : State) : State :=
  let s := { s with power := { s.power with
    clampAt := some s.now, climbAt := none, clamps := sat32 (s.power.clamps + 1) } }
  (List.range 16).foldl (fun s p =>
    let x := s.part p
    if !x.present then s
    else
      let s := if x.st == .released then s.onPart p (fun x => { x with rep := { x.rep with clamp := true } }) else s
      if x.reflex then s
      else ((s.changePoint p 0).pstatFlag p 20).onPart p (fun x => { x with pw := { x.pw with limit := 3 } })) (s.pwrFlag 0)

/-- The clamp is triggered by an applied cap more than 50 W below the input power (R368). -/
def State.clampIfFar (s : State) : State :=
  if s.power.capNow * 100 + 500 < s.power.meanIn then s.clamp else s

/-- A write of PWR_CAP_SET (R361, R368, R374). -/
def State.writeCap (s : State) (v : Nat) : State :=
  if v < 30 ∨ 140 < v then s.pwrFlag 2
  else { s with power := { s.power with capSet := v } }.applyCap.clampIfFar

/-- PWR_CAP_SET_WRITE (R361). -/
def execPwrCapSetWrite (v : Word) (s : State) : Out := .next (s.writeCap (fld v 0 8))

-- The choice of a point (R362, R365 to R367).

/-- The block budget in 0.1 W (R362). -/
def State.budget (s : State) : Nat := 100 * s.power.capNow - 2000 - 300 * s.reflexBlocks

/-- The weight of a partition, as a fraction (R362). -/
def State.weight (s : State) (p : Nat) : Nat × Nat :=
  let w := (s.part p).pw
  let ceil := s.shareSum (·.pceil)
  let floor := s.shareSum (·.pfloor)
  if ceil ≤ 256 then (w.pceil, 1) else (w.pfloor * (ceil - floor) + (w.pceil - w.pfloor) * (256 - floor), ceil - floor)

/-- A partition's budget in 0.1 W, as a fraction: 30 W per block for the reflex partition (R362, R366). -/
def State.partBudget (s : State) (p : Nat) : Nat × Nat :=
  let x := s.part p
  if x.reflex then (300 * x.blocks.length, 1)
  else let (n, d) := s.weight p; (s.budget * n, 256 * d)

/-- The learned entry of the current phase, and the others (R365). -/
def PartPower.entry (w : PartPower) : Option (Nat × Nat) × List (Nat × Nat × Nat × Nat) :=
  let mine (e : Nat × Nat × Nat × Nat) := e.1 == w.phase.handle && e.2.1 == w.phase.pcode
  ((w.learned.find? mine).map (fun e => (e.2.2.1, e.2.2.2)), w.learned.filter (fun e => !mine e))

/-- The entry of the current phase becomes the most recent of at most 64 (R365). -/
def PartPower.learn (w : PartPower) (k : Nat × Nat) : PartPower :=
  { w with learned := ((w.phase.handle, w.phase.pcode, k.1, k.2) :: w.entry.2).take 64 }

/-- One eighth of the difference between the calibrated estimate and the prediction at the point (R365). -/
def learnStep (k : Nat × Nat) (point est gain : Nat) : Nat × Nat :=
  let w := vfWeight point
  (7 * k.1 * w * 16384 + est * gain * k.2, 8 * w * k.2 * 16384)

/-- The predicted power at a point fits a budget. -/
def fits (k b : Nat × Nat) (point : Nat) : Bool := decide (k.1 * vfWeight point * b.2 ≤ b.1 * k.2)

/-- The highest point that fits, or 0. -/
def highestFit (k b : Nat × Nat) : Nat := (((List.range 16).filter (fits k b)).getLast?).getD 0

/-- The largest duty D that fits where even point 0 does not, or 0 (R367). -/
def dutyOf (k b : Nat × Nat) : Nat :=
  if fits k b 0 then 0
  else (((range2 1 15).filter (fun d => decide (d * k.1 * vfWeight 0 * b.2 ≤ 16 * b.1 * k.2))).getLast?).getD 1

/-- The phase's bounds limited by the policy: VF_MIN and VF_MAX (R366). -/
def PartPower.bounds (w : PartPower) : Nat × Nat :=
  (max w.ffloor (min w.phase.vfMin w.fceil), min w.fceil (max w.phase.vfMax w.ffloor))

/-- The point of a partition and the limit that sets it (R366, R375, log 35). -/
def State.choose (s : State) (p : Nat) (k : Nat × Nat) : Nat × Nat :=
  let x := s.part p
  let heat := (x.blocks.map (fun b => (s.block b).limit)).foldl min 15
  let fit := highestFit k (s.partBudget p)
  if x.reflex then
    let q := min heat (max 6 (min x.pw.fceil fit))
    (q, if heat < max 6 (min x.pw.fceil fit) then 4 else if fit < x.pw.fceil then 2 else 1)
  else
    let hold := if s.power.clampAt.isSome then 0 else 15
    let top := x.pw.bounds.2
    let q := min (min heat hold) (min fit top)
    (q, if s.power.clampAt.isSome then 3 else if q = heat ∧ heat < 15 then 4 else if q = fit ∧ fit < top then 2
        else if q = top then 1 else 0)

/-- The largest rise in one interval: STEPS, or none while the partitions climb after a clamp (R365, R368). -/
def State.riseOf (s : State) (p : Nat) : Nat :=
  if s.power.climbAt.isSome && !(s.part p).reflex then 0 else (s.part p).pw.phase.steps

/-- A block moves toward the partition's point, rising by no more than the partition does, and from no point below the lowest (R365,
R366). -/
def State.moveBlock (s : State) (b q rise low : Nat) : State :=
  let k := s.block b
  let cur := k.latched.getD k.point
  s.onBlock b (fun k => k.change (min q (max low (cur + rise))))

/-- A partition held below its floor by its budget, as R367 times it. -/
def holdConflict (w : PartPower) (fit point now : Nat) : PartPower :=
  if point ≥ w.ffloor then { w with conflictAt := none, conflictRaised := false }
  else if fit < w.ffloor then { w with conflictAt := match w.conflictAt with | none => some now | t => t }
  else { w with conflictAt := none }

/-- One partition in a power interval: estimate and energy, the learned entry, the choice of the point (R365 to R367). -/
def State.partInterval (s : State) (p est : Nat) : State :=
  let x := s.part p
  if !x.present then s
  else
    let g := s.power.gain
    let (seed, s) := s.draw
    let k0 := match x.pw.entry.1 with | some k => k | none => (seed, vfWeight 0)
    let k := learnStep k0 x.pw.point est g
    let w := { x.pw.learn k with est := sat16 (quot (est * g) 16384), energy := x.pw.energy + est * g }
    let s := s.setPart p { x with pw := w }
    if w.st != .p0 then s
    else
      let (want, lim) := s.choose p k
      let rise := s.riseOf p
      let q := min want (max x.lowPoint (w.point + rise))
      let fit := highestFit k (s.partBudget p)
      let s := x.blocks.foldl (fun s b => s.moveBlock b q rise x.lowPoint) s
      let slow := x.blocks.any (fun b => decide ((s.block b).latched.getD (s.block b).point < min q (s.block b).limit))
      s.onPart p (fun y => { y with pw := { holdConflict w fit q s.now with
        point := q, limit := if slow then 5 else if q < want then 0 else lim
        duty := if y.reflex then 0 else dutyOf k (s.partBudget p) } })

/-- POWER_INTERVAL: every 1 µs (R360, R365 to R367, R376). -/
def execPowerInterval (est queues : List Nat) (s : State) : Out :=
  let due := match s.power.lastInt with | none => true | some t => decide (t + usTicks ≤ s.now)
  if !due then .next s
  else
    let s := if s.power.capNow < s.floorTens ∨ s.power.floorNow ≠ s.floorTens then s.applyCap else s
    let s := (List.range 16).foldl (fun s p => s.partInterval p (est.getD p 0)) s
    let g := s.power.gain
    .next { s with power := { s.power with
      lastInt := some s.now, interval := s.power.interval + 1
      queues := (List.range 12).foldl (fun l q => Sp.set 0 l q (Sp.get 0 l q + queues.getD q 0 * g)) s.power.queues } }

/-- GAIN_UPDATE: every 1 ms the gain moves one quarter of the way to the measured energy divided by the estimates, limited
to [0.75, 1.25] (R360). With no estimate at all the quotient is not stated: a free value in that range. -/
def execGainUpdate (measured estimated : Nat) (s : State) : Out :=
  let due := match s.power.lastGain with | none => true | some t => decide (t + msTicks ≤ s.now)
  if !due then .next s
  else
    let (f, s) := s.draw
    -- four times the new gain, as a fraction
    let num := if estimated = 0 then 12288 + f % 8193
      else if 4 * measured ≤ 3 * estimated then 12288
      else if 5 * estimated ≤ 4 * measured then 20480 else 16384 * measured
    let den := if estimated = 0 ∨ 4 * measured ≤ 3 * estimated ∨ 5 * estimated ≤ 4 * measured then 1 else estimated
    .next { s with power := { s.power with
      lastGain := some s.now, gain := quot (3 * s.power.gain * den + num) (4 * den) } }

/-- POWER_SAMPLE: one sample of the 48 V input; after 1,000 samples PWR_IN shows the millisecond's means (R360, R374). -/
def execPowerSample (volts amps : Nat) (s : State) : Out :=
  let w := s.power
  let due := match w.lastSample with | none => true | some t => decide (t + usTicks ≤ s.now)
  if !due then .next s
  else
    let e := volts * amps
    let n := w.nIn + 1
    let w := { w with lastSample := some s.now, energy := w.energy + e, accIn := w.accIn + e, accVolts := w.accVolts + volts, nIn := n }
    if n < 1000 then .next { s with power := w }
    else .next { s with power := { w with
      meanIn := sat16 (quot w.accIn (10000 * n)), volts := sat16 (quot w.accVolts n), accIn := 0, accVolts := 0, nIn := 0 } }

/-- POLICY_CONFLICT: a partition held below its floor by its budget for 1 ms, once in each episode (R367). -/
def execPolicyConflict (p : Nat) (s : State) : Out :=
  let w := (s.part p).pw
  match w.conflictAt with
  | some t =>
    if (s.part p).present && decide (t + msTicks ≤ s.now) && !w.conflictRaised then
      let s := (s.raise 17 0 1 0 p 0 s.power.capNow).pstatFlag p 17
      .next (s.onPart p (fun x => { x with pw := { x.pw with conflictRaised := true } }))
    else .next s
  | none => .next s

-- The clamp's end (R368).

/-- Each partition outside the reflex partition rises by one point, never above the choice of R366. -/
def State.climb (s : State) : State :=
  (List.range 16).foldl (fun s p =>
    let x := s.part p
    if !x.present || x.reflex || x.pw.st != .p0 then s
    else match x.pw.entry.1 with
    | none => s
    | some k =>
      let q := min (s.choose p k).1 (x.pw.point + 1)
      (x.blocks.foldl (fun s b => s.moveBlock b q 1 0) s).onPart p (fun x => { x with pw := { x.pw with point := q } })) s

/-- A partition still lies below its choice. -/
def State.climbing (s : State) : Bool :=
  (List.range 16).any (fun p =>
    let x := s.part p
    x.present && !x.reflex && x.pw.st == .p0
      && (match x.pw.entry.1 with | none => false | some k => decide (x.pw.point < (s.choose p k).1)))

/-- CLAMP_HOLD_END: 100 µs after the clamp's 5 µs, the climb begins with its first rise (R368). -/
def execClampHoldEnd (s : State) : Out :=
  match s.power.clampAt with
  | some t =>
    if t + 105 * usTicks ≤ s.now then
      .next { s with power := { s.power with clampAt := none, climbAt := some s.now } }.climb
    else .next s
  | none => .next s

/-- CLAMP_CLIMB: a rise every 50 µs, until every partition stands at its choice (R368). -/
def execClampClimb (s : State) : Out :=
  match s.power.climbAt with
  | some t =>
    if t + 50 * usTicks ≤ s.now then
      let s := s.climb
      .next { s with power := { s.power with climbAt := if s.climbing then some s.now else none } }
    else .next s
  | none => .next s

-- Droop (R369, R370).

/-- A stretch begins: it counts in PWR_DROOPS and sets DROOP. -/
def State.beginStretch (s : State) (b : Nat) : State :=
  let s := s.onBlock b (fun k => { k with stretch := some s.now })
  match s.owner b with
  | some p => (s.pstatFlag p 19).onPart p (fun x => { x with pw := { x.pw with droops := sat32 (x.pw.droops + 1) } })
  | none => s

/-- DROOP_DETECT (R369). -/
def execDroopDetect (b : Nat) (s : State) : Out :=
  if b < 16 && (s.block b).on && (s.block b).stretch.isNone then .next (s.beginStretch b) else .next s

/-- STRETCH_END: after 256 stretched beats above the threshold; a latched point is applied (R369, R370). -/
def execStretchEnd (b : Nat) (s : State) : Out :=
  let k := s.block b
  if k.stretch.isNone then .next s
  else .next (s.setBlock b { k with stretch := none, latched := none, point := min (k.latched.getD k.point) k.limit })

/-- DROOP_LONG: a stretch that lasts 4 µs ends with the block at point 0, and a supply that is still low begins a new one
(R369). -/
def execDroopLong (b : Nat) (still : Bool) (s : State) : Out :=
  let k := s.block b
  match k.stretch with
  | some t =>
    if t + 4 * usTicks ≤ s.now then
      let s := s.setBlock b { k with stretch := none, latched := none, point := 0 }
      let s := match s.owner b with
        | some p => s.onPart p (fun x => { x with pw := { x.pw with limit := 5 } })
        | none => s
      let s := s.raise 18 0 0 7 (ownerByte (s.owner b)) 0 b
      .next (if still then s.beginStretch b else s)
    else .next s
  | none => .next s

-- Heat (R372).

/-- The block belongs to the reflex partition. -/
def State.reflexBlock (s : State) (b : Nat) : Bool := match s.owner b with | some p => (s.part p).reflex | none => false

/-- The point of a block follows its limit down at once. -/
def Block.cool (k : Block) : Block :=
  { k with point := min k.point k.limit, latched := k.latched.map (fun q => min q k.limit) }

/-- THERMAL_LIMIT_STEP: at 100 °C or above the limit falls one point per 100 µs and THROTTLE is set; below 95 °C it rises one
point per 1 ms; the reflex partition's falls no lower than point 6 (R372). -/
def execThermalLimitStep (b temp : Nat) (s : State) : Out :=
  let k := s.block b
  let since (d : Nat) : Bool := match k.thermAt with | none => true | some t => decide (t + d ≤ s.now)
  let k := { k with temp := temp }
  if b > 15 then .next s
  else if 1000 ≤ temp && since (100 * usTicks) then
    let low := if s.reflexBlock b then 6 else 0
    let s' := s.setBlock b { k with tlimit := if k.tlimit ≤ low then k.tlimit else k.tlimit - 1, thermAt := some s.now }.cool
    .next (match s.owner b with | some p => s'.pstatFlag p 18 | none => s')
  else if temp < 950 && since msTicks then
    .next (s.setBlock b { k with tlimit := min 15 (k.tlimit + 1), hot := false, thermAt := some s.now })
  else .next (s.setBlock b k)

/-- THERMAL: at 110 °C the block goes to point 0 at once (R372). -/
def execThermal (b temp : Nat) (s : State) : Out :=
  let k := s.block b
  if b > 15 || temp < 1100 || k.hot then .next s
  else
    let s := s.setBlock b { k with temp := temp, tlimit := 0, hot := true, thermAt := some s.now }.cool
    .next (s.raise 19 0 0 7 (ownerByte (s.owner b)) 0 (b + 16 * (temp % 4096)))

/-- COOLANT: the coolant's temperatures; an inlet at or above 45 °C sets COOLANT_HOT and raises COOLANT (R372, R374). -/
def execCoolant (inlet outlet : Nat) (s : State) : Out :=
  let s := { s with power := { s.power with coolIn := sat16 inlet, coolOut := sat16 outlet } }
  .next (if 450 ≤ inlet then (s.pwrFlag 4).raise 21 0 0 0 255 0 inlet else s)

end Sys2Proof.Machine
end

