-- ==== Sys2Proof/Machine/Commands.lean ====
section
/-!
DEFINITION. Mailbox commands (R310 to R314): the order in which a function's commands start and the checks they share, HELLO
and SESSION (R310, R426 to R428), attestation (R430), tenants and DDR4 channels (R272 to R275), partitions (R74, R435),
video pairs (R248), policies (R363), channels (R282, R313) and contexts (R190). B commands are applied at a boundary (R311).
-/
namespace Sys2Proof.Machine

-- Starting a command (R311 to R314).

/-- Bytes inside the layouts of R314 that no row lists: offset and length. -/
def cmdGaps (opc : Nat) : List (Nat × Nat) :=
  match opc with
  | 0x0104 => [(0x0A, 2)] | 0x0105 => [(0x0F, 1)] | 0x0109 => [(0x0B, 1)] | 0x0201 => [(9, 3)] | 0x0301 => [(9, 3)]
  | 0x0303 => [(9, 3)] | 0x0304 => [(9, 3)] | 0x0401 => [(9, 3)] | 0x0501 => [(0x26, 2)] | 0x0503 => [(0x0A, 6)]
  | 0x0505 => [(0x0B, 5)] | 0x0601 => [(9, 7)] | 0x0701 => [(9, 3)] | 0x0801 => [(0x16, 2)] | 0x0804 => [(0x0A, 6)]
  | 0x0806 => [(0x0A, 6)]
  | _ => []

/-- A function may start its next command: PF0's wait for READY, for the end of a bring-up, or for Forfort (R395, R404), and none
starts during a compute reset (R390). -/
def State.mayStart (s : State) (f : Nat) : Bool :=
  s.bru.depth != 2 && (f != 0 || s.bru.isReady || s.bru.failed || s.fw.forfort)

/-- The command that a function starts next, in sequence order, while none but B commands is in progress (R311). -/
def State.nextCmd (s : State) (f : Nat) : Option Cmd :=
  let x := s.fn f
  if s.mayStart f && x.open_.all (fun c => isB c.opc) then x.cmds.find? (fun c => !c.outside) else none

/-- The next HELLO or SESSION, answered from the end of phase 6, and on PF0 by Forfort (R395, R449, R493). -/
def State.nextOutside (s : State) (f : Nat) : Option Cmd :=
  if s.bru.ended.contains 6 || (s.fw.forfort && f == 0) then (s.fn f).cmds.find? (·.outside) else none

/-- A command leaves the queue of its function. -/
def State.popCmd (s : State) (f : Nat) (c : Cmd) : State := s.onFn f (fun x => { x with cmds := dropOne c x.cmds })

/-- Commands whose OPC is not defined are answered UNKNOWN_OP as they come up (R313). -/
def State.skipUnknown (f : Nat) : Nat → State → State
  | 0, s => s
  | k + 1, s =>
    match s.nextCmd f with
    | some c => if knownOpc c.opc then s else State.skipUnknown f k ((s.popCmd f c).respond f c.seq c.opc 0x0100 [])
    | none => s

/-- The refusal that a command meets before its own rules: WRONG_FUNCTION, STATE while Forfort runs or after a failed
bring-up, FIELD for a reserved parameter byte (R312, R314, R404, R447). -/
def State.cmdRefusal (s : State) (f : Nat) (c : Cmd) : Option Nat :=
  if (f == 0 && partCodes.contains c.opc) || (f != 0 && pf0Codes.contains c.opc) then some 0x0101
  else if f == 0 && (s.bru.failed || s.fw.forfort) && c.opc / 256 != 7 then some 0x0104
  else if (cmdGaps c.opc).any (fun g => !allZero c.payload g.1 g.2) then some 0x0102
  else none

/-- A mailbox command with a given OPC starts, if it is the function's next one. -/
def State.command (s : State) (f opc : Nat) (run : State → Cmd → State) : State :=
  if f > 16 then s
  else
    let s := s.skipUnknown f (s.fn f).cmds.length
    match s.nextCmd f with
    | none => s
    | some c =>
      if c.opc ≠ opc then s
      else
        let s := s.popCmd f c
        match s.cmdRefusal f c with
        | some r => s.respond f c.seq opc r []
        | none => run s c

/-- HELLO or SESSION starts, if it is the next one of the two (R493). -/
def State.outsideCommand (s : State) (f opc : Nat) (run : State → Cmd → State) : State :=
  if f > 16 then s
  else match s.nextOutside f with
  | none => s
  | some c => if c.opc ≠ opc then s else run (s.popCmd f c) c

/-- A started command that is answered later (R311). -/
def State.hold (s : State) (f : Nat) (c : Cmd) : State := s.onFn f (fun x => { x with open_ := x.open_ ++ [c] })

/-- The answer of a command: refused by the first condition that holds, or carried out. -/
def State.answer (s : State) (f : Nat) (c : Cmd) (checks : List (Bool × Nat)) (run : State → State) : State :=
  match checks.find? (·.1) with
  | some (_, r) => s.respond f c.seq c.opc r []
  | none => (run s).respond f c.seq c.opc 0 []

-- HELLO, SESSION, CHAN_QUERY.

/-- HP_ROLE of a function on a port (R293). -/
def State.hpRole (s : State) (h f : Nat) : Nat :=
  f + 32 * h + 64 * b2n (f != 0) + 256 * (f - 1) + 4096 * b2n (f != 0 && (s.part (f - 1)).valid)

/-- The RESP of HELLO or SESSION: a control frame of its port (R493). It goes ahead of frames that wait for a session, which
could not be read before it (R309, log 42). -/
def State.respondOutside (s : State) (f : Nat) (c : Cmd) (result : Nat) (body : Bytes) : State :=
  let old := (s.fn f).egress
  let s := s.sendCtrl c.port f 2 0 (respPayload c.opc result body) c.seq
  let new := (s.fn f).egress.drop old.length
  s.onFn f (fun x => { x with
    egress := old.takeWhile (fun g => g.port.isSome) ++ new ++ old.dropWhile (fun g => g.port.isSome) })

/-- HELLO: the session ends, and the highest common version is chosen (R310). -/
def State.runHello (s : State) (f : Nat) (c : Cmd) : State :=
  let vmin := u8 c.payload 8
  let vmax := u8 c.payload 9
  let ok := decide (vmin ≤ 1) && decide (1 ≤ vmax)
  let s := s.onHp c.port f (fun x => { x with session := none, endAfter := none, vsel := b2n ok })
  if !ok then s.respondOutside f c 1 []
  else s.respondOutside f c 0
    (bytes [1, 1, 1, s.hpRole c.port f % 256, f - 1, c.port] ++ le 2 s.clk.slotId ++ le 8 s.watch.serial ++ le 4 s.fw.version)

/-- HELLO (R310). -/
def execHello (f : Nat) (s : State) : Out := .next (s.outsideCommand f 1 (fun s c => s.runHello f c))

/-- ASCII bytes of a string. -/
def ascii (t : String) : Bytes := t.toList.map (fun ch => BitVec.ofNat 8 ch.toNat)

/-- The two keys of a session: inbound and outbound (R426). -/
def sessionKeys (serial f port : Nat) (z ph pm : Bytes) : Bytes × Bytes :=
  let prk := Crypto.hkdfExtract (le 8 serial ++ bytes [f, port]) z
  (Crypto.hkdfExpand prk (ascii "EV7 host-to-module" ++ ph ++ pm) 32,
   Crypto.hkdfExpand prk (ascii "EV7 module-to-host" ++ ph ++ pm) 32)

/-- SESSION: the old session ends whether or not the new one succeeds (R426, R428). -/
def State.runSession (s : State) (f : Nat) (c : Cmd) : State :=
  let ph := slice c.payload 8 32
  let s := s.onHp c.port f (fun x => { x with session := none, endAfter := none })
  let pin := Sp.get none s.watch.pins f
  if pin.isSome && pin != some ph then s.respondOutside f c 1 []
  else
    let (priv, s) := s.drawBytes 32
    let pm := Crypto.x25519Public priv
    let z := Crypto.x25519 priv ph
    if z.all (· == 0) then s.respondOutside f c 2 []
    else
      let (kin, kout) := sessionKeys s.watch.serial f c.port z ph pm
      let sig := Crypto.edSign s.watch.idSeed
        (ascii "EV7 session" ++ ph ++ pm ++ le 8 s.watch.serial ++ bytes [f, c.port] ++ le 2 s.clk.slotId)
      (s.respondOutside f c 0 (pm ++ sig)).onHp c.port f (fun x => { x with session := some { inKey := kin, outKey := kout } })

/-- SESSION (R426). -/
def execSession (f : Nat) (s : State) : Out := .next (s.outsideCommand f 2 (fun s c => s.runSession f c))

/-- CHAN_QUERY (R314). -/
def execChanQuery (f : Nat) (s : State) : Out :=
  .next (s.command f 0x0003 (fun s c =>
    let ch := u8 c.payload 8
    let i := (s.fn f).in_ ch
    let o := (s.fn f).out ch
    s.respond f c.seq 0x0003 0 (le 8 i.next ++ le 8 o.watermark
      ++ bytes [b2n i.configured, b2n o.configured, b2n o.discard, o.ports])))

-- Keys, tenants and channels of the cold tier (R272 to R275).

/-- A fresh XTS key from the TRNG: its number in the key store (R274, R424). -/
def State.newKey (s : State) : Nat × State :=
  let k := s.freeCtr + 1
  (k, { s with freeCtr := k, watch := { s.watch with keys := s.watch.keys ++ [k] } })

/-- A tenant holds a partition, a video pair or a channel (R314). -/
def State.tenantParts (s : State) (t : Nat) : Bool :=
  (List.range 16).any (fun p => (s.part p).present && (s.part p).tenant == t)
def State.tenantPairs (s : State) (t : Nat) : Bool := (List.range 4).any (fun k => (s.vpair k).owner == some t)
def State.tenantChans (s : State) (t : Nat) : List Nat := (List.range 8).filter (fun c => (s.dchan c).owner == some t)

/-- TENANT_CREATE: the tenant and its key (R274, R313). -/
def execTenantCreate (f : Nat) (s : State) : Out :=
  .next (s.command f 0x0101 (fun s c =>
    let t := u8 c.payload 8
    s.answer f c [(decide (t > 7), 0x0102), ((s.tenant t).present, 0x0104)] (fun s =>
      let (k, s) := s.newKey
      s.setTenant t { present := true, key := some k })))

/-- TENANT_DELETE: its key is destroyed, and its former channels may be assigned again (R272, R275). -/
def State.deleteTenant (s : State) (t : Nat) : State :=
  let s := (s.destroyKey (s.tenant t).key).setTenant t {}
  (List.range 8).foldl (fun s c => s.onDchan c (fun d => if d.prev = some t then { d with prev := none } else d)) s

/-- TENANT_DELETE (R275, R314). -/
def execTenantDelete (f : Nat) (s : State) : Out :=
  .next (s.command f 0x0102 (fun s c =>
    let t := u8 c.payload 8
    s.answer f c [(decide (t > 7), 0x0102), (!(s.tenant t).present, 0x0106),
        (s.tenantParts t || s.tenantPairs t || !(s.tenantChans t).isEmpty, 0x0108)] (fun s => s.deleteTenant t)))

/-- A SHARED range of a tenant touches a channel. -/
def Tenant.rangeOn (t : Tenant) (c : Nat) : Bool :=
  (List.range 16).any (fun i => match Sp.get none t.ranges i with
    | some (a, n) => decide (coldChan a ≤ c) && decide (c ≤ coldChan (a + n - 1))
    | none => false)

/-- DDR_ASSIGN (R272, R314). -/
def execDdrAssign (f : Nat) (s : State) : Out :=
  .next (s.command f 0x0103 (fun s c =>
    let ch := u8 c.payload 8
    let op := u8 c.payload 9
    let t := u8 c.payload 10
    let d := s.dchan ch
    let o := d.owner.getD 0
    if op = 1 then
      s.answer f c [(decide (ch > 7) || decide (t > 7), 0x0102), (!(s.tenant t).present, 0x0106),
          (d.oos || d.owner.isSome || d.prev.isSome, 0x0104)]
        (fun s => s.setDchan ch { d with owner := some t, prev := none })
    else
      s.answer f c [(decide (ch > 7) || decide (op > 1), 0x0102), (d.oos || d.owner.isNone, 0x0104),
          ((s.tenant o).rangeOn ch || (s.tenantParts o && s.tenantChans o == [ch]), 0x0108)]
        (fun s => s.setDchan ch { d with owner := none, prev := some o })))

/-- Every page of a range lies in the tenant's channels, outside the system regions (R271, R314). -/
def State.ownsRange (s : State) (t first n : Nat) : Bool :=
  decide (0 < n) && decide (first + n ≤ 2 ^ 21)
    && (range2 (coldChan first) (coldChan (first + n - 1))).all (fun c =>
        (s.dchan c).owner == some t && !isSystem (min (first + n - 1) (2 ^ 18 * c + 2 ^ 18 - 1)))

/-- A range of `n` pages from `a` lies in a range or in no page of it. -/
def keeps (r : Option (Nat × Nat)) (a n : Nat) : Bool :=
  decide (n = 0) || match r with | some (b, m) => decide (b ≤ a) && decide (a + n ≤ b + m) | none => false

/-- The pages that two ranges share: first page and count. -/
def meet (r : Option (Nat × Nat)) (a n : Nat) : Nat × Nat :=
  match r with
  | some (b, m) => (max a b, min (a + n) (b + m) - max a b)
  | none => (0, 0)

/-- RANGE_SET: sets a SHARED range, or removes it with COUNT 0 (R314). What the range held of a log ring, an image or video storage it
holds afterwards. -/
def execRangeSet (f : Nat) (s : State) : Out :=
  .next (s.command f 0x0104 (fun s c =>
    let t := u8 c.payload 8
    let i := u8 c.payload 9
    let first := u32 c.payload 0x0C
    let n := u32 c.payload 0x10
    let old := s.tenant t
    let was := Sp.get none old.ranges i
    let will := if n = 0 then none else some (first, n)
    let clash := (List.range 16).any (fun j => j != i && (match Sp.get none old.ranges j with
      | some (a, m) => decide (a < first + n) && decide (first < a + m)
      | none => false))
    let lost := (s.storage t).any (fun u => let m := meet was u.1 u.2; !keeps will m.1 m.2)
    s.answer f c [(decide (t > 7) || decide (i > 15), 0x0102), (!old.present, 0x0106),
        (n != 0 && !s.ownsRange t first n, 0x0109), (n != 0 && clash, 0x0107), (lost, 0x0108)]
      (fun s => s.setTenant t { old with ranges := Sp.set none old.ranges i will })))

-- Partitions (R74, R285, R313, R329, R363, R435).

/-- Blocks of a rectangle (R74). -/
def rectBlocks (br0 br1 bc0 bc1 : Nat) : List Nat :=
  (range2 br0 br1).flatMap (fun r => (range2 bc0 bc1).map (fun c => 4 * r + c))

/-- Blocks that partitions hold, those under scrub among them. -/
def State.heldBlocks (s : State) : List Nat := (List.range 16).flatMap (fun p => (s.part p).blocks)

/-- The partition that a PART_CREATE makes (R285, R314, R363). -/
def newPart (b : Bytes) (now : Nat) : Part :=
  let n := (rectBlocks (u8 b 10) (u8 b 11) (u8 b 12) (u8 b 13)).length
  { present := true, tenant := u8 b 9, br0 := u8 b 10, br1 := u8 b 11, bc0 := u8 b 12, bc1 := u8 b 13
    reflex := (u8 b 14).testBit 0, tb := now, plog := { first := u32 b 0x10, pages := u32 b 0x14 }
    pw := { fceil := 15, pceil := 16 * n, point := if (u8 b 14).testBit 0 then 6 else 0 } }

/-- The refusal of PART_CREATE, in the order of R314. -/
def State.partCreateRefusal (s : State) (b : Bytes) : Option Nat :=
  let (p, t) := (u8 b 8, u8 b 9)
  let (br0, br1, bc0, bc1) := (u8 b 10, u8 b 11, u8 b 12, u8 b 13)
  let reflex := (u8 b 14).testBit 0
  let blocks := rectBlocks br0 br1 bc0 bc1
  let (pf, pn, lf, ln) := (u32 b 0x10, u32 b 0x14, u32 b 0x18, u32 b 0x1C)
  let scrubbed (k : Nat) : Bool := match s.owner k with | some q => (s.part q).scrub | none => false
  ([(decide (p > 15) || decide (t > 7) || decide (br1 > 3) || decide (bc1 > 3) || decide (br0 > br1) || decide (bc0 > bc1)
      || decide (u8 b 14 > 1) || !(64 ≤ pn && pn ≤ 4096) || !(1 ≤ ln && ln ≤ 4096), 0x0102),
    ((s.part p).present || blocks.any scrubbed, 0x0104),
    (blocks.any (fun k => (s.owner k).isSome || (s.block k).oos), 0x0107),
    (decide (s.heldBlocks.length + blocks.length > s.licBlocks)
      || decide (((List.range 16).filter (fun q => (s.part q).present)).length + 1 > s.licParts)
      || (reflex && !s.licReflex), 0x0103),
    (!(s.tenant t).sharesAll pf pn || !(s.tenant t).sharesAll lf ln, 0x0109),
    (reflex && (List.range 16).any (fun q => (s.part q).reflex), 0x0001)].find? (·.1)).map (·.2)

/-- A partition comes to be: its blocks are powered, those of the reflex partition at a point that it may run at, and its channel 0 and
partition log begin (R74, R285, R301, R329, R354, R366). Frames of a former partition of the number that have not left yet go with its
numbering (log 153). -/
def State.createPart (s : State) (b : Bytes) : State :=
  let p := u8 b 8
  let f := partFn p
  let s := s.setPart p (newPart b s.now)
  let low := (s.part p).lowPoint
  let s := (s.part p).blocks.foldl (fun s k => s.onBlock k (fun x => { x with
    on := true, point := low, latched := none, stretch := none, grants := [] })) s
  s.onFn f (fun x => { ({} : Fn) with
    cmds := x.cmds.filter (·.outside), egress := x.egress.filter (fun e => e.port.isSome)
    inch := [(0, { configured := true, ring := { first := u32 b 0x18, pages := u32 b 0x1C } })] })

/-- PART_CREATE (R74, R314). -/
def execPartCreate (f : Nat) (s : State) : Out :=
  .next (s.command f 0x0105 (fun s c =>
    match s.partCreateRefusal c.payload with
    | some r => s.respond f c.seq 0x0105 r []
    | none => (s.createPart c.payload).respond f c.seq 0x0105 0 []))

/-- A stream entry is gone; its deadlines are disarmed (R325). -/
def State.removeStream (s : State) (i : Nat) : State := s.setStream i none

/-- Stream entries that a test selects are removed (R325). -/
def State.removeStreams (s : State) (sel : StreamEntry → Bool) : State :=
  (List.range 32).foldl (fun s i => match s.stream i with
    | some e => if sel e then s.removeStream i else s
    | none => s) s

/-- Video contexts of a partition end with it (log 37). -/
def State.dropVctxs (s : State) (p : Nat) : State :=
  (List.range 32).foldl (fun s i => match s.vctx (i / 8) (i % 8) with
    | some v => if v.part = p then s.setVctx (i / 8) (i % 8) none else s
    | none => s) s

/-- Every page-table row of a partition goes to SCRUB, FREE rows among them (R155, R435). -/
def State.scrubRows (s : State) (x : Part) : State :=
  x.rowsOf.foldl (fun s r => { s.setPte r (putFld (s.pte r) 7 2 Pte.scrub) with filling := s.filling ++ [r] })
    { s with filling := s.filling.filter (fun r => !x.hasCell (pageCell r)) }

/-- Commands of a function that end with its partition are answered SUPERSEDED in sequence order (R313). -/
def State.supersedeAll (s : State) (f : Nat) : State :=
  let x := s.fn f
  let s := s.onFn f (fun y => { y with cmds := y.cmds.filter (·.outside), bcmds := [], open_ := [] })
  s.supersede f (sortBy (fun a b => decide (a.seq ≤ b.seq)) (x.open_ ++ x.bcmds ++ x.cmds.filter (fun c => !c.outside)))

/-- The scrub of a partition begins (R313, R325, R435): its functions' commands are SUPERSEDED, it issues nothing more, and
its cells, pages, plates and keys are cleared. -/
def State.deletePart (s : State) (p cmd : Nat) : State :=
  let x := s.part p
  let f := partFn p
  let s := s.removeStreams (fun e => e.part == p)
  let s := (s.dropVctxs p).supersedeAll f
  let s := if x.st == .released && x.reflex then s.dropReflex else s
  let s := if x.pw.st == .p3 then x.blocks.foldl (fun s b => s.onBlock b (fun k => { k with on := true })) s else s
  let s := (List.range 64).foldl (fun s n => s.destroyKey (x.ctx n).key) s
  let s := (s.scrubCells x).scrubRows x
  let s := x.blocks.foldl (fun s b => s.onBlock b (fun k => { k with grants := [] })) s
  -- the output channels stay until the frames in egress have left
  let s := s.onFn f (fun y => { y with inch := [], images := [], mirrors := [] })
  let s := s.setPart p {
    present := true, tenant := x.tenant, br0 := x.br0, br1 := x.br1, bc0 := x.bc0, bc1 := x.bc1, reflex := x.reflex
    scrub := true, deleteCmd := some cmd, pw := { x.pw with st := .p0, idle := false, idleAt := none, waking := false } }
  { s with
    scrubs := s.scrubs.filter (fun w => match w with | .ctx q _ => q != p | _ => true) ++ [.part p]
    fw := { s.fw with waiting := s.fw.waiting.filter (· ≠ p) }
    bru := { s.bru with rebuilding := s.bru.rebuilding.filter (· ≠ p) }
    pair := { s.pair with snapLeft := if s.pair.snapLeft.testBit p then s.pair.snapLeft - 2 ^ p else s.pair.snapLeft } }

/-- PART_DELETE: answered when the scrub ends (R314, R435). -/
def execPartDelete (f : Nat) (s : State) : Out :=
  .next (s.command f 0x0106 (fun s c =>
    let p := u8 c.payload 8
    if p > 15 then s.respond f c.seq 0x0106 0x0102 []
    else if !(s.part p).valid then s.respond f c.seq 0x0106 0x0106 []
    else (s.deletePart p c.seq).hold f c))

/-- VPAIR_ALLOC (R248, R436, log 34). -/
def execVpairAlloc (f : Nat) (s : State) : Out :=
  .next (s.command f 0x0107 (fun s c =>
    let k := u8 c.payload 8
    let t := u8 c.payload 9
    s.answer f c [(decide (k > 3) || decide (t > 7), 0x0102), (!(s.tenant t).present, 0x0106), (!s.licVideo, 0x0103),
        ((s.vpair k).scrub || (s.vpair k).owner.isSome, 0x0104)]
      (fun s => s.setVpair k { owner := some t })))

/-- VPAIR_RELEASE: the pair is scrubbed, and the command answered when that ends (R248, R435, log 34). -/
def execVpairRelease (f : Nat) (s : State) : Out :=
  .next (s.command f 0x0108 (fun s c =>
    let k := u8 c.payload 8
    let v := s.vpair k
    let no := [(decide (k > 3), 0x0102), (v.scrub || v.owner.isNone, 0x0104),
      ((List.range 8).any (fun j => (s.vctx k j).isSome), 0x0108)].find? (·.1)
    match no with
    | some (_, r) => s.respond f c.seq 0x0108 r []
    | none =>
      { s.setVpair k { v with scrub := true, releaseCmd := some c.seq } with
        scrubs := addOnce (.pair k) s.scrubs }.hold f c))

/-- POLICY_SET (R363). -/
def execPolicySet (f : Nat) (s : State) : Out :=
  .next (s.command f 0x0109 (fun s c =>
    let b := c.payload
    let p := u8 b 8
    let (ff, fc, pf, pc) := (u8 b 9, u8 b 10, u16 b 0x0C, u16 b 0x0E)
    if p ≤ 15 ∧ !(s.part p).valid then s.respond f c.seq 0x0109 0x0106 []
    else match (if p > 15 then some 0x0102 else s.policyRefusal p ff fc pf pc) with
    | some r => s.respond f c.seq 0x0109 r []
    | none => (s.setPolicy p ff fc pf pc).respond f c.seq 0x0109 0 []))

/-- TOLERANCE_SET (R363). -/
def execToleranceSet (f : Nat) (s : State) : Out :=
  .next (s.command f 0x0203 (fun s c => s.answer f c [] (fun s => s.setTol (f - 1) (u32 c.payload 8))))

-- Channels (R282, R313, R427).

/-- Sessions of a function end on both ports after its next frame of channel 0 (R427). -/
def State.endSessionsAfter (s : State) (f seq : Nat) : State :=
  (List.range 2).foldl (fun s h => s.onHp h f (fun x => { x with endAfter := if x.session.isSome then some seq else none })) s

/-- INCH_CONFIG: the channel's ring begins empty with its numbering at 0:0, and the RESP is the last frame under the
function's session keys (R282, R313, R427). -/
def execInchConfig (f : Nat) (s : State) : Out :=
  .next (s.command f 0x0201 (fun s c =>
    let ch := u8 c.payload 8
    let first := u32 c.payload 0x0C
    let n := u32 c.payload 0x10
    let x := s.part (f - 1)
    let i := (s.fn f).in_ ch
    let no := [(ch == 0 || !(1 ≤ n && n ≤ 4096), 0x0102), (!(s.tenant x.tenant).sharesAll first n, 0x0109),
      (!i.entries.isEmpty || !i.writing.isEmpty || x.reqs.any (fun r => r.chan == ch), 0x0104)].find? (·.1)
    match no with
    | some (_, r) => s.respond f c.seq 0x0201 r []
    | none =>
      let last := ((s.fn f).out 0).next
      ((s.onIn f ch (fun _ => { configured := true, ring := { first := first, pages := n } })).endSessionsAfter f last).respond
        f c.seq 0x0201 0 []))

/-- A B command is accepted and waits for the next boundary; at a boundary that is idle it is applied at once (R193, R311). -/
def State.acceptB (s : State) (f : Nat) (c : Cmd) : State :=
  let x := s.part (f - 1)
  if x.bdone && x.st == .boundary && (s.fn f).bcmds.isEmpty && x.cancels.isEmpty && !s.forkWaits (f - 1) c then
    s.applyB (f - 1) c s.now
  else s.onFn f (fun y => { y with bcmds := y.bcmds ++ [c] })

/-- OUTCH_CONFIG (R314). -/
def execOutchConfig (f : Nat) (s : State) : Out := .next (s.command f 0x0202 (fun s c => s.acceptB f c))

-- Contexts and sequences (R190, R314).

/-- CTX_OPEN: the context's key and job identity (R190, R274, R436). -/
def execCtxOpen (f : Nat) (s : State) : Out :=
  .next (s.command f 0x0301 (fun s c =>
    let b := c.payload
    let n := u8 b 8
    let p := f - 1
    let (mem, mems) := (u16 b 0x10, u16 b 0x12)
    s.answer f c [(decide (n > 63) || !(1 ≤ mems && mems ≤ 4096) || decide (mems ≤ mem), 0x0102),
        (((s.part p).ctx n).st != .free, 0x0104)] (fun s =>
      let (k, s) := s.newKey
      s.onPart p (fun x => x.setCtx n { st := .opened, job := u32 b 0x0C, member := mem, members := mems, key := some k }))))

/-- CTX_CLOSE (R190). -/
def execCtxClose (f : Nat) (s : State) : Out := .next (s.command f 0x0302 (fun s c => s.acceptB f c))

/-- FORK (R314). -/
def execFork (f : Nat) (s : State) : Out := .next (s.command f 0x0303 (fun s c => s.acceptB f c))

/-- SEQ_DROP (R314). -/
def execSeqDrop (f : Nat) (s : State) : Out := .next (s.command f 0x0304 (fun s c => s.acceptB f c))

/-- KEY_REQUEST (R266, R314). -/
def execKeyRequest (f : Nat) (s : State) : Out := .next (s.command f 0x0603 (fun s c => s.acceptB f c))

-- Attestation (R430, R431).

/-- Entries of a partition's report in order of kind and handle: kind, handle, measurement (R430). -/
def Part.attestEntries (x : Part) : List (Nat × Nat × Bytes) :=
  x.plates.filterMap (fun e => e.2.map (fun m => (1, e.1, m.meas)))
    ++ x.tables.filterMap (fun e => e.2.bind (fun m => if m.tkind = 1 then some (2, e.1, m.meas) else none))
    ++ x.tables.filterMap (fun e => e.2.bind (fun m => if m.tkind = 2 then some (3, e.1, m.meas) else none))
    ++ x.wimgs.filterMap (fun e => e.2.map (fun m => (4, e.1, m.meas)))

/-- A report, signed by the device identity (R430); PART and TENANT are 0xFF for a module report. -/
def State.report (s : State) (part tenant : Nat) (entries : List (Nat × Nat × Bytes)) (first : Nat) (nonce : Bytes) : Bytes :=
  let es := (entries.drop first).take 800
  let lic := if s.watch.licValid then s.watch.licence else none
  let b := le 4 0x45545441 ++ le 2 entries.length ++ le 2 es.length ++ bytes [part, tenant] ++ le 2 s.clk.slotId
    ++ le 4 s.fw.version ++ nonce ++ le 8 (match lic with | some l => u64 l 8 | none => 0) ++ zeros 8 ++ s.watch.romHash
    ++ s.fw.meas ++ (match lic with | some l => Crypto.sha512 l | none => zeros 64) ++ s.watch.cert
    ++ es.flatMap (fun e => le 4 e.1 ++ le 4 e.2.1 ++ e.2.2)
  b ++ Crypto.edSign s.watch.idSeed b

/-- ATTEST (R430, R431). -/
def execAttest (f : Nat) (s : State) : Out :=
  .next (s.command f 0x0901 (fun s c =>
    let x := s.part (f - 1)
    s.respond f c.seq 0x0901 0
      (s.report (f - 1) x.tenant x.attestEntries (u16 c.payload 0x28) (slice c.payload 8 32))))

end Sys2Proof.Machine
end

