-- ==== Sys2Proof/Machine/Issue.lean ====
section
/-!
DEFINITION. Issue: bundles (R83, R84), plate fetch (R85), segments into cells (R112), the start and completion of
operations (R90, R113, R114, R116), barriers (R117 to R119), the limiter (R120, R121), phases and the end of a step
(R101, R122).
-/
namespace Sys2Proof.Machine

/-- The released plate at a position of the step list. -/
def Part.listPlate (x : Part) (pos : Nat) : Option Plate := (x.handles[pos]?).bind x.plate

/-- The step list is a pinned plate (R80). -/
def Part.pinned (x : Part) : Bool := match x.listPlate 0 with | some pl => pl.pinned | none => false

/-- The next segment, when it has been fetched whole (R84, R85). -/
def Part.nextSegment (x : Part) : Option (Segment × Nat) :=
  let buf := if x.pinned then x.pinBuf.drop x.segPos else x.prefetch
  if buf.length < 8 then none
  else
    let (sg, n) := segmentAt buf 0
    if buf.length < n then none else some (sg, n)

/-- Barriers pending in the partition: issued and not yet released everywhere (R112, R117). -/
def Part.pendingBarriers (x : Part) : Nat :=
  x.barriers.length + (x.seqq.filter (fun e => Dsc.opc e.2 == 9)).length

/-- Every cell of the partition can accept a segment (R84, R112). -/
def canAccept (s : State) (x : Part) (sg : Segment) : Bool :=
  x.cells.all (fun n => decide ((s.cell n).segBuf.length < 4))
    && (decide (x.pendingBarriers < 4) || !sg.descs.any (fun d => Dsc.opc d == 9))

/-- The partition is included in a bundle, or takes an idle beat (R84, R358). -/
def issueReady (s : State) (x : Part) : Option (Segment × Nat) :=
  if x.st == .released && x.pw.st == .p0 && !x.issued then
    match x.nextSegment with
    | some (sg, n) => if canAccept s x sg then some (sg, n) else none
    | none => none
  else none

/-- Delivers the next segment of a partition (R79 to R84, R88): cells receive the segment, the sequencing unit takes up
BARRIER, PHASE and END, and after an END the next plate of the list follows, or a pinned plate begins again. -/
def State.issueSegment (s : State) (p : Nat) (sg : Segment) (len : Nat) : State :=
  let x := s.part p
  let no := x.segNo
  let s := x.cells.foldl (fun s n => s.onCell n (fun c => { c with
    segBuf := c.segBuf ++ [(no, sg.descs.filter (fun d => !Dsc.isSeq d))] })) s
  let atEnd := sg.descs.any (fun d => Dsc.opc d == 0x1F)
  let last := decide (x.listPos + 1 ≥ x.handles.length)
  let sq := x.seqq ++ (sg.descs.filter Dsc.isSeq).map (fun d => (no, d))
  s.setPart p { x with
    segNo := no + 1, idleLeft := sg.idle, seqq := sq, quiet := 0
    prefetch := if x.pinned then x.prefetch else x.prefetch.drop len
    segPos := if atEnd then 0 else x.segPos + len
    listPos := if atEnd && !last then x.listPos + 1 else x.listPos
    issued := atEnd && last && !x.pinned }

/-- BUNDLE_ISSUE: one issue cycle. A bundle is formed when a partition has a released step; every ready partition gives
its segment or takes an idle beat (R83, R84). The sequencer issues nothing once the presence contacts have opened (R352). -/
def execBundleIssue (s : State) : Out :=
  let s := { s with seqCycle := s.seqCycle + 1 }
  let rel := (List.range 16).filter (fun p => (s.part p).st == .released && !s.bru.halted)
  if rel.isEmpty then .next s
  else
    let ready := rel.filterMap (fun p => (issueReady s (s.part p)).map (fun e => (p, e)))
    let give := ready.filter (fun e => (s.part e.1).idleLeft = 0)
    let wait := ready.filter (fun e => (s.part e.1).idleLeft ≠ 0)
    let s := wait.foldl (fun s e => s.onPart e.1 (fun x => { x with idleLeft := x.idleLeft - 1 })) s
    let s := give.foldl (fun s e => s.issueSegment e.1 e.2.1 e.2.2) s
    .next { s with
      mbeat := (s.mbeat + 1) % 2 ^ 32
      pmask := give.foldl (fun m e => m + 2 ^ e.1) 0 }

/-- PLATE_FETCH: 64 bytes of the step list's streams enter the partition's prefetch buffer while it has room; the later
plates follow the first (R85). An uncorrectable error of a plate page delivers nothing (R137). -/
def execPlateFetch (p : Nat) (s : State) : Out :=
  let x := s.part p
  match x.listPlate x.fetchList with
  | none => .next s
  | some pl =>
    if x.st == .released ∧ !x.pinned ∧ x.prefetch.length + 64 ≤ 4096 then
      let a := pl.segOff + x.fetchPos
      let n := min (min 64 (pl.segBytes - x.fetchPos)) (pageBytes - a % pageBytes)
      let at_ := pl.pages.getD (a / pageBytes) 0 * pageBytes + a % pageBytes
      -- accesses to a row that is being copied wait (R139)
      if s.rowBusy at_ n then .next s
      else match s.panFetch at_ n with
      | (none, s) => .next s
      | (some b, s) =>
        let done := decide (x.fetchPos + n ≥ pl.segBytes)
        .next (s.onPart p (fun x => { x with
          prefetch := x.prefetch ++ b
          fetchPos := if done then 0 else x.fetchPos + n
          fetchList := if done then x.fetchList + 1 else x.fetchList }))
    else .next s

/-- Enters one descriptor in the queues of its units, when each has room for it (R111, R112). A descriptor of several units enters all
its queues at once or none of them; R112 does not say whether it may enter those that have room first (log 140). -/
def CellState.enqueue (c : CellState) (seg : Nat) (d : Desc) : Option CellState :=
  let us := Dsc.units d
  if us.all (fun u => decide ((Sp.get [] c.queues u).length < 32)) then
    let id := c.nextOp
    some { c with
      nextOp := id + 1
      ops := c.ops ++ [{ id := id, seg := seg, desc := d }]
      queues := us.foldl (fun q u => Sp.set [] q u (Sp.get [] q u ++ [id])) c.queues }
  else none

/-- Moves what fits of the oldest buffered segment into the queues; descriptors that do not select the cell are dropped
(R112). -/
def CellState.drainSegment (c : CellState) (r col seg : Nat) (ds : List Desc) : CellState × List Desc :=
  ds.foldl (fun (a : CellState × List Desc) d =>
    if !Dsc.selects d r col then a
    else match a.1.enqueue seg d with
      | some c' => (c', a.2)
      | none => (a.1, a.2 ++ [d])) (c, [])

/-- SEGMENT_ACCEPT: the cell moves the descriptors of its oldest segment into the queues of the units they name; the
segment leaves the buffer when all have entered (R112). The watchdog restarts when a descriptor moves or the segment leaves (R123). -/
def execSegmentAccept (n : Nat) (s : State) : Out :=
  match s.cellOwner n with
  | none => .next s
  | some p =>
    let x := s.part p
    let c := s.cell n
    match c.segBuf with
    | [] => .next s
    | (seg, ds) :: rest =>
      if x.st == .released then
        let (c', left) := c.drainSegment (x.relRow n) (x.relCol n) seg ds
        let s' := s.setCell n { c' with segBuf := if left.isEmpty then rest else (seg, left) :: rest }
        .next (if left.length < ds.length then s'.progress p else s')
      else .next s

-- Starting an operation.

/-- An operation of a cell by its number. -/
def CellState.op (c : CellState) (id : Nat) : Option CellOp := c.ops.find? (fun o => o.id == id)

def CellState.setOp (c : CellState) (o : CellOp) : CellState :=
  { c with ops := c.ops.map (fun q => if q.id = o.id then o else q) }

/-- The release of every earlier barrier has reached the cell's block (R117, R119). -/
def barriersPassed (x : Part) (n seg : Nat) : Bool :=
  let k := (x.blocks.findIdx? (· == blockOf n)).getD 0
  x.barriers.all (fun b => decide (seg ≤ b.seg) || (b.done && decide (k < b.released)))
    && x.seqq.all (fun e => Dsc.opc e.2 != 9 || decide (seg ≤ e.1))

/-- The engine is idle: 32 consecutive beats of its cell without a tile operation (R120). -/
def engineIdle (c : CellState) (e : Nat) : Bool :=
  !(c.ops.any (fun o => Dsc.opc o.desc == 1 && o.started.contains e && !o.worked.contains e)) &&
  match Sp.get none c.lastTile e with
  | none => true
  | some b => decide (b + 32 ≤ c.beats)

/-- The post of an operation whose work is done meets a channel that holds 63 tokens: its completion is held (R114). -/
def CellState.postHeld (c : CellState) (o : CellOp) : Bool :=
  (Dsc.units o.desc).all (fun u => o.worked.contains u) && Dsc.pen o.desc && decide (63 ≤ Sp.get 0 c.tokens (Dsc.pev o.desc))

/-- The unit can take up another operation: a tile operation waits for the drain of its accumulator tile and a DRAIN for
the tile operations into its tile (R51); other work on one unit goes one operation at a time (R90), and a unit whose operation's
post is held waits (R114). -/
def unitFree (c : CellState) (u : Nat) (o : CellOp) : Bool :=
  c.ops.all (fun q => q.id == o.id || !q.started.contains u || (q.worked.contains u && !c.postHeld q) ||
    (decide (u < 4) && !q.worked.contains u && Dsc.opc q.desc != Dsc.opc o.desc && Dsc.acc q.desc != Dsc.acc o.desc))

/-- Free transfer-tracker entries of the partition of the kind the operation needs (R116). -/
def trackerRoom (x : Part) (d : Desc) : Bool :=
  decide (x.trk < 512 * x.blocks.length) && (Dsc.opc d != 8 || decide (x.trkDdr < 256 * x.blocks.length))

/-- One page that an operation reaches: page, cell and Pan named, binding entry, write. -/
structure PageUse where
  page : Nat
  cell : Nat
  pan : Nat
  bind : Option Bnd.Entry := none
  write : Bool := false

/-- Page named directly by a slot or through a binding slot of the step's set (R96, R99). -/
def pageBy (s : State) (x : Part) (n pan : Nat) (ind : Bool) (field : Nat) : Nat × Option Bnd.Entry :=
  if ind then let b := s.bindEntry n x.bset field; (Bnd.row b, some b) else (pageOf n pan (field % 32), none)

/-- Destination cells of a MOVE from a cell (R98). -/
def moveDests (x : Part) (n : Nat) (d : Desc) : List Nat :=
  let (r, c) := Dsc.dest d (x.relRow n) (x.relCol n)
  if Dsc.kind d == 1 then
    (range2 r.toNat (Dsc.brow1 d)).flatMap (fun i => (range2 c.toNat (Dsc.bcol1 d)).map (fun j => x.cellAt i j))
  else [x.cellAt r.toNat c.toNat]

/-- The pages that an operation reaches on unit `u`; a GATHER checks its own (R147). -/
def pageUses (s : State) (x : Part) (n u : Nat) (d : Desc) : List PageUse :=
  match Dsc.opc d with
  | 1 =>
    (if Dsc.asrc d then
      [{ page := pageOf n (Dsc.apan d) ((Dsc.aaddr d + u * Dsc.astep d) / 4096), cell := n, pan := Dsc.apan d }] else [])
    ++ (if Dsc.bsrc d then
      [{ page := pageOf n (Dsc.bpan d) ((Dsc.baddr d + u * Dsc.bstep d) / 4096), cell := n, pan := Dsc.bpan d }] else [])
  | 4 | 5 =>
    let (pg, b) := pageBy s x n (Dsc.pan d) (Dsc.pInd d) (Dsc.pPage d)
    [{ page := pg, cell := n, pan := Dsc.pan d, bind := b, write := Dsc.opc d == 5 }]
  | 7 =>
    let ind := Dsc.mInd d
    let (sp, sb) := if ind then pageBy s x n (Dsc.span d) true (Dsc.saddr d % 65536)
      else (pageOf n (Dsc.span d) (Dsc.saddr d / 4096), none)
    (if Dsc.ssp d then [{ page := sp, cell := n, pan := Dsc.span d, bind := sb }] else [])
    ++ (if Dsc.dsp d then (moveDests x n d).map (fun m =>
        let (dp, db) := if ind then pageBy s x n (Dsc.dpan d) true (Dsc.daddr d % 65536)
          else (pageOf m (Dsc.dpan d) (Dsc.daddr d / 4096), none)
        { page := dp, cell := m, pan := Dsc.dpan d, bind := db, write := true }) else [])
  | 8 =>
    let (pg, b) := pageBy s x n (Dsc.cPan d) (Dsc.cInd d) (Dsc.ppage d)
    [{ page := pg, cell := n, pan := Dsc.cPan d, bind := b, write := !Dsc.dir d }]
  | _ => []

/-- The reason for which a COLD's cold page is refused, or none (R276). -/
def coldReason (s : State) (x : Part) (n : Nat) (d : Desc) : Option Nat :=
  let b := s.bindEntry n x.bset (Dsc.cslot d)
  if !s.tenantPage x.tenant (Bnd.coldPage b) then some 1
  else
    let c := (x.ctx (Bnd.coldCtx b)).st
    if c == .opened || c == .closing then none else some 2

/-- The operation at the head of a unit's queue may start now, apart from its pages (R90, R113, R116, R117, R121). -/
def mayStart (s : State) (x : Part) (n u : Nat) (o : CellOp) : Bool :=
  let c := s.cell n
  let d := o.desc
  barriersPassed x n o.seg && unitFree c u o
    && (o.tok || !Dsc.wen d || decide (0 < Sp.get 0 c.tokens (Dsc.wev d)))
    && (o.trk || !Dsc.tracked d || trackerRoom x d)

/-- OPERATION_START: the next queued operation of a unit starts once its wait token, tracker entry, limiter grant and
operands are available; a page that it may not reach stops the partition (R90, R113, R116, R121, R147, R148, R276). -/
def execOperationStart (n u : Nat) (s : State) : Out :=
  match s.cellOwner n with
  | none => .next s
  | some p =>
    let x := s.part p
    let c := s.cell n
    match Sp.get [] c.queues u with
    | [] => .next s
    | id :: rest =>
      match c.op id with
      | none => .next s
      | some o =>
        let d := o.desc
        let tile := Dsc.opc d == 1
        if x.st != .released || o.dead || !mayStart s x n u o then .next s
        else if tile && engineIdle c u && !c.grants.contains u then .next s
        else
          -- every operation but GATHER checks all its pages, of all its units, before it starts (R147)
          let bad := ((Dsc.units d).flatMap (fun v => pageUses s x n v d)).findSome? (fun g =>
            (pageReason s p g.cell g.pan g.page g.bind g.write).map (fun r => (r, g)))
          match bad with
          | some (r, g) => .next (pageFault s p n g.pan g.page r (Dsc.opc d) id)
          | none =>
            match (if Dsc.opc d == 8 then coldReason s x n d else none) with
            | some r =>
              let b := s.bindEntry n x.bset (Dsc.cslot d)
              .next ((s.killOp n id).raiseStop 6 r 4 1 p
                (locDdr (coldChan (Bnd.coldPage b)) (coldInChan (Bnd.coldPage b)) 0) (Dsc.cslot d))
            | none =>
              let take := Dsc.wen d && !o.tok
              let trk := Dsc.tracked d && !o.trk
              let o' := { o with tok := true, trk := Dsc.tracked d, started := addOnce u o.started }
              let c' := { c.setOp o' with
                queues := Sp.set [] c.queues u rest
                tokens := if take then Sp.set 0 c.tokens (Dsc.wev d) (Sp.get 0 c.tokens (Dsc.wev d) - 1) else c.tokens
                grants := if tile then c.grants.filter (· ≠ u) else c.grants }
              let s := s.setCell n c'
              .next (s.setPart p { x with
                quiet := 0
                trk := x.trk + b2n trk
                trkDdr := x.trkDdr + b2n (trk && Dsc.opc d == 8) })

-- Effects of started operations.

/-- Byte ranges of the Pans that a PANRD, PANWR, MOVE or COLD reads or writes; tile operations and decode lanes find theirs in their
own operands (R96, R98, R99). -/
def panRanges (s : State) (x : Part) (n u : Nat) (d : Desc) : List (Nat × Nat) :=
  let at_ (page unit len : Nat) := (page * pageBytes + 32 * unit, 32 * len)
  match Dsc.opc d with
  | 4 | 5 => (pageUses s x n u d).map (fun g => at_ g.page (Dsc.poff d) (Dsc.pLen d))
  | 7 => (pageUses s x n u d).map (fun g =>
      at_ g.page (if Dsc.mInd d then 0 else (if g.write then Dsc.daddr d else Dsc.saddr d) % 4096) (Dsc.mLen d))
  | 8 => (pageUses s x n u d).map (fun g => (g.page * pageBytes, pageBytes))
  | _ => []

/-- The operation of an opcode that has started on a unit of the cell and whose work there is not done, with its
partition; an operation that reaches a Pan row that is being copied waits (R139). -/
def startedOp (s : State) (n u opc : Nat) : Option (Nat × CellOp) :=
  match s.cellOwner n with
  | none => none
  | some p =>
    match (s.cell n).ops.find? (fun o => Dsc.opc o.desc == opc && o.started.contains u && !o.worked.contains u && !o.dead) with
    | none => none
    | some o => if (panRanges s (s.part p) n u o.desc).any (fun r => s.rowBusy r.1 r.2) then none else some (p, o)

/-- The unit's work of an operation is done (R113). -/
def State.workDone (s : State) (n u : Nat) (o : CellOp) : State :=
  s.onCell n (fun c => { c with ops := c.ops.map (fun q => if q.id = o.id then { q with worked := addOnce u q.worked } else q) })

/-- A plate write to a page sets DIRTY (R143, R154). -/
def State.markDirty (s : State) (page : Nat) : State := s.setPte page (setBit (s.pte page) 9)

/-- The operation's last acknowledgement is needed: a MOVE, and a COLD harvest (R113). -/
def needsAck (d : Desc) : Bool := Dsc.opc d == 7 || (Dsc.opc d == 8 && Dsc.dir d)

/-- OPERATION_COMPLETE: all units of the operation have done their work (and the far end has acknowledged); it posts its
token, waiting while the channel holds 63, and its tracker entry returns (R113, R114, R116). -/
def execOperationComplete (n op : Nat) (s : State) : Out :=
  match s.cellOwner n, (s.cell n).op op with
  | some p, some o =>
    let d := o.desc
    let c := s.cell n
    let all := (Dsc.units d).all (fun u => o.worked.contains u)
    let full := Dsc.pen d && decide (Sp.get 0 c.tokens (Dsc.pev d) ≥ 63)
    if o.dead || !all || full || (needsAck d && !o.acked) then .next s
    else
      let c' := { c with
        ops := c.ops.filter (fun q => decide (q.id ≠ op))
        tokens := if Dsc.pen d then Sp.set 0 c.tokens (Dsc.pev d) (Sp.get 0 c.tokens (Dsc.pev d) + 1) else c.tokens }
      .next ((s.setCell n c').onPart p (fun x => { x with
        quiet := 0
        trk := x.trk - b2n o.trk
        trkDdr := x.trkDdr - b2n (o.trk && Dsc.opc d == 8) }))
  | _, _ => .next s

/-- MOVE_ACKNOWLEDGE: the destination's acknowledgement reaches the source (R113). -/
def execMoveAcknowledge (n op : Nat) (s : State) : Out :=
  match s.cellOwner n, (s.cell n).op op with
  | some p, some o =>
    if Dsc.opc o.desc == 7 && o.worked.contains 13 then
      .next ((s.onCell n (fun c => c.setOp { o with acked := true })).progress p)
    else .next s
  | _, _ => .next s

-- The sequencing unit.

/-- BARRIER: the oldest descriptor of the sequencing unit becomes a pending barrier (R100, R117). -/
def execBarrier (p : Nat) (s : State) : Out :=
  let x := s.part p
  match x.seqq with
  | (seg, d) :: rest =>
    if Dsc.opc d == 9 && x.st == .released then
      .next (s.setPart p { x with
        seqq := rest
        barriers := x.barriers ++ [{ seg := seg, bid := Dsc.bid d, stagger := Dsc.stagger d }] })
    else .next s
  | [] => .next s

/-- Every operation of segments up to `seg` has completed in every cell of the partition (R117, R122). -/
def allComplete (s : State) (x : Part) (seg : Nat) : Bool :=
  x.cells.all (fun n =>
    let c := s.cell n
    c.ops.all (fun o => decide (seg < o.seg)) && c.segBuf.all (fun e => decide (seg < e.1)))

/-- BARRIER_COMPLETE: every operation issued before the oldest barrier has completed, and its release begins: to every
block at once, or to the first block of the stagger (R117, R119). -/
def execBarrierComplete (p : Nat) (s : State) : Out :=
  let x := s.part p
  match x.barriers with
  | b :: rest =>
    if x.st == .released && !b.done && allComplete s x b.seg then
      let nb := x.blocks.length
      let one := b.stagger && decide (1 < nb)
      .next (s.setPart p { x with
        lastBid := b.bid, quiet := 0
        barriers := if one then { b with done := true, at_ := s.seqCycle, released := 1 } :: rest else rest })
    else .next s
  | [] => .next s

/-- STAGGER_RELEASE: the k-th block of the partition is released 8 k sequencer cycles after the barrier completed
(R119); with its release the barrier completes in the block's cells (R113, R123). -/
def execStaggerRelease (p : Nat) (s : State) : Out :=
  let x := s.part p
  match x.barriers with
  | b :: rest =>
    if b.done && b.stagger && decide (b.at_ + 8 * b.released ≤ s.seqCycle) then
      .next (s.setPart p { x with
        quiet := 0
        barriers := if b.released + 1 ≥ x.blocks.length then rest else { b with released := b.released + 1 } :: rest })
    else .next s
  | [] => .next s

/-- An idle engine that waits for a grant: its next operation is a tile operation that may start otherwise (R120,
R121). -/
def wantsGrant (s : State) (x : Part) (n e : Nat) : Bool :=
  let c := s.cell n
  match Sp.get [] c.queues e with
  | id :: _ =>
    (match c.op id with
     | some o => Dsc.opc o.desc == 1 && !o.dead && engineIdle c e && !c.grants.contains e && mayStart s x n e o
     | none => false)
  | [] => false

/-- LIMITER_GRANT: at most 16 grants in any 8 consecutive sequencer cycles of a block; waiting engines are served in
ascending cell position, then engine (R121). -/
def execLimiterGrant (b : Nat) (s : State) : Out :=
  match s.owner b with
  | none => .next s
  | some p =>
    let x := s.part p
    let k := s.block b
    let recent := k.grants.filter (fun c => decide (s.seqCycle < c + 8))
    let next := (blockCells b).findSome? (fun n =>
      ((List.range 4).find? (fun e => wantsGrant s x n e)).map (fun e => (n, e)))
    match next with
    | some (n, e) =>
      if x.st == .released ∧ recent.length < 16 then
        let s := s.setBlock b { k with grants := recent ++ [s.seqCycle] }
        .next ((s.onCell n (fun c => { c with grants := c.grants ++ [e] })).progress p)
      else .next s
    | none => .next s

/-- Phase values of a partition before its first PHASE, and with RAMP 0xFFF (R364). -/
def phaseDefault (pcode handle : Nat) : PhaseCtl := { pcode := pcode, handle := handle }

/-- A ramp-plan entry (R364). -/
def rampEntry (e pcode handle : Nat) : PhaseCtl :=
  { pcode := pcode, handle := handle, vfMin := bits e 0 4, vfMax := bits e 4 4, act := bits e 8 8, steps := bits e 16 4 }

/-- PHASE: at issue it tells the power controller the phase and its ramp entry; reserved PCODE values act as NONE, which
changes no phase (R14, R101, R364). An entry that an error of its plate page keeps from being read stops the partition (R137), and a
plate with a row that is being copied waits (R139). -/
def execPhase (p : Nat) (s : State) : Out :=
  let x := s.part p
  match x.seqq with
  | (_, d) :: rest =>
    if Dsc.opc d == 10 && x.st == .released then
      let pc := Dsc.pcode d
      -- the plate whose stream held the descriptor; the END of a plate leaves the queue before the next plate's PHASE
      let pos := x.listPos - ((rest.filter (fun e => Dsc.opc e.2 == 0x1F)).length - b2n x.issued)
      let h := x.handles.getD pos 0
      let set (s : State) (ph : PhaseCtl) : State := s.onPart p (fun x => { x with seqq := rest, pw := { x.pw with phase := ph } })
      if pc = 0 ∨ 9 ≤ pc then .next (set s x.pw.phase)
      else match x.listPlate pos with
        | none => .next (set s (phaseDefault pc h))
        | some pl =>
          if Dsc.ramp d = 0xFFF then .next (set s (phaseDefault pc h))
          else if (pl.pages.any (fun g => s.rowBusy (g * pageBytes) pageBytes)) then .next s
          else match State.plateFetch 2 s pl (pl.rampOff + 8 * Dsc.ramp d) 8 with
            | (some b, s) => .next (set s (rampEntry (leNat b) pc h))
            | (none, s) => .next s
    else .next s
  | [] => .next s

/-- END: the end of a plate that is not the last only marks the place of the next plate; the END of the last plate, or of
a pinned plate, awaits the step completion (R122). -/
def execEndPlate (p : Nat) (s : State) : Out :=
  let x := s.part p
  match x.seqq with
  | (_, d) :: rest =>
    if Dsc.opc d == 0x1F && x.st == .released && !x.endWait then
      let last := x.pinned || (rest.isEmpty && x.issued)
      .next (s.setPart p (if last then { x with endWait := true } else { x with seqq := rest }))
    else .next s
  | [] => .next s

/-- STEP_COMPLETION: every operation issued before the END, barriers among them, has completed and every tracker entry has returned:
PTM_DONE is stamped, the deadline clears and the partition is COMPLETE; a pass of a pinned plate commits without a record, its
flags clear, and it goes on (R46, R113, R122, R126, R202, R333). The reflex partition that so leaves RELEASED drops its queued
requests (R330). -/
def execStepCompletion (p : Nat) (s : State) : Out :=
  let x := s.part p
  match x.seqq with
  | (seg, _) :: rest =>
    if x.st == .released && x.endWait && allComplete s x seg && x.barriers.isEmpty && (x.pinned || x.trk == 0) then
      if x.pinned then
        .next ((s.setPart p { x with
          seqq := rest, endWait := false, quiet := 0, doneTick := s.now, outTaken := [], flags := {} }).consumeTaken
          (partFn p))
      else
        let late := x.armed && decide (s.now > x.dl) && !x.dlMissed
        let miss := x.armed && decide (s.now > x.dl)
        let x' := { x with
          st := .complete, seqq := rest, endWait := false, quiet := 0, doneTick := s.now, dl := 0, armed := false
          ptmStat := setBit x.ptmStat 0
          rep := { x.rep with
            beats := x.cells.map (fun n => (n, (s.cell n).beats - Sp.get 0 x.rep.beats n)), missed := miss || x.dlMissed } }
        let s' := s.setPart p x'
        let s' := if x.reflex then s'.dropReflex else s'
        .next (if late then s'.raiseMiss p 1 1 0 (min (s.now - x.dl) 0xFFFFFFFF) else s')
    else .next s
  | [] => .next s

-- The step deadline.

/-- DEADLINE_MISS: in the first tick after the deadline tick without step completion the miss is raised, once; a deadline already
past at the release is missed in the first tick after it (R126 to R128). -/
def execDeadlineMiss (p : Nat) (s : State) : Out :=
  let x := s.part p
  if x.st == .released ∧ x.armed ∧ !x.dlMissed ∧ x.dl < s.now ∧ x.rep.tRel < s.now then
    let s := s.onPart p (fun x => { x with dlMissed := true, rep := { x.rep with missed := true } })
    .next (s.raiseMiss p 1 1 0 (min (s.now - x.dl) 0xFFFFFFFF))
  else .next s

end Sys2Proof.Machine
end

