-- ==== Sys2Proof/Machine/Vec.lean ====
section
/-!
DEFINITION. The vector unit (R43 to R45, R53, R54, R95): one meaning for each class of VEC, over shared lane functions.
Each class reads its operands from the vector registers of its cell and writes lanes 0 to VALID − 1 of VD.
-/
namespace Sys2Proof.Machine

namespace Vec

open Arith

/-- The 128 lanes of a vector register (R53). -/
def reg (s : State) (n r : Nat) : List Nat := (Sp.read 0 s.mem.vreg ((32 * n + r) * 128) 128).map (·.toNat)

/-- Writes lanes 0 to the length of the list of a register; the others keep their values (R95). -/
def setReg (s : State) (n r : Nat) (vals : List Nat) : State :=
  s.setMem (fun m => { m with vreg := Sp.write 0 m.vreg ((32 * n + r) * 128) (vals.map (BitVec.ofNat 32)) })

/-- A lane result without flags. -/
def pure (v : Nat) : Nat × Flags := (v, {})

/-- An FP32 operand of which a NaN is the canonical NaN (R22). -/
def canon (a : Nat) : Nat := if (decode fp32 a).isNan then nan32 else a

/-- Class 0, Simple FP32 (R43, R95). -/
def simple (func : Nat) (mode : Mode) (a b c : Nat) : Nat × Flags :=
  match func with
  | 0 => add mode a b
  | 1 => sub mode a b
  | 2 => mul mode a b
  | 3 => fma mode a b c
  | 4 => pure (fmin a b)
  | 5 => pure (fmax a b)
  | 6 => pure (canon a % 2 ^ 31)
  | 7 => pure (negate a)
  | 8 => pure (b2n (feq a b))
  | 9 => pure (b2n (flt a b))
  | 10 => pure (b2n (fle a b))
  | _ => pure (if c ≠ 0 then a else b)

/-- Class 1, Integer (R53, R95). -/
def integer (func a b : Nat) : Nat :=
  let x := toInt 32 a
  let y := toInt 32 b
  match func with
  | 0 => (a + b) % 2 ^ 32
  | 1 => (a + 2 ^ 32 - b) % 2 ^ 32
  | 2 => a * b % 2 ^ 32
  | 3 => if b ≥ 32 then 0 else a * 2 ^ b % 2 ^ 32
  | 4 => ofInt 32 (x / (2 ^ (min b 32) : Nat))
  | 5 => if b ≥ 32 then 0 else a / 2 ^ b
  | 6 => Nat.land a b
  | 7 => Nat.lor a b
  | 8 => Nat.xor a b
  | 9 => if x ≤ y then a else b
  | 10 => if x ≥ y then a else b
  | 11 => b2n (a == b)
  | _ => b2n (decide (x < y))

/-- A value to FP32 without saturation (R34, R36). -/
def toF32 (mode : Mode) (v : Val) : Nat × Flags := convert 0 mode false v

/-- Function 0 of class 2 for a scalar format: rounded to FMT and returned as FP32 (R95). -/
def roundScalar (fmt : Nat) (mode : Mode) (sat : Bool) (a : Nat) : Nat × Flags :=
  let (e, f) := convert fmt mode sat (decode fp32 a)
  let (r, g) := toF32 mode (valueOf fmt e)
  (r, f.or g)

/-- One MX block of 32 lanes encoded and decoded again (R31, R26, R95). -/
def roundMx (fmt : Nat) (smode : Bool) (lanes : List Nat) : List Nat × Flags :=
  let (sc, els, f) := mxEncode fmt smode lanes
  let out := els.map (fun e => toF32 .rne (mxValue fmt sc e))
  (out.map (·.1), f.or (Flags.all (out.map (·.2))))

/-- Lanes 0 to VALID − 1, padded with +0 to whole blocks of 32. -/
def blocks (valid : Nat) (lanes : List Nat) : List (List Nat) :=
  pieces 32 (lanes.take valid ++ List.replicate (roundUp valid 32 - valid) 0)

/-- Class 2, Conversion (R34, R35, R95). -/
def conversion (func fmt : Nat) (mode : Mode) (sat smode : Bool) (valid : Nat) (a : List Nat) : List Nat × Flags :=
  let lanes (f : Nat → Nat × Flags) : List Nat × Flags :=
    let r := (a.take valid).map f
    (r.map (·.1), Flags.all (r.map (·.2)))
  match func with
  | 0 =>
    if isMx fmt then
      let r := (blocks valid a).map (roundMx fmt smode)
      ((r.flatMap (·.1)).take valid, Flags.all (r.map (·.2)))
    else lanes (roundScalar fmt mode sat)
  | 1 => lanes (fun x => convert 8 mode false (decode fp32 x))
  | _ => lanes (fun x => toF32 mode (Val.ofInt (toInt 32 x)))

/-- The balanced binary tree of a reduction: level by level, neighbours joined with the lower index on the left (R45). -/
def tree (f : Nat → Nat → Nat × Flags) : Nat → List Nat → Nat × Flags
  | 0, l => (l.headD 0, {})
  | k + 1, l =>
    let prs := (List.range (l.length / 2)).map (fun i => f (l.getD (2 * i) 0) (l.getD (2 * i + 1) 0))
    let (r, g) := tree f k (prs.map (·.1))
    (r, (Flags.all (prs.map (·.2))).or g)

/-- The lane of the greatest (or least) value that is not NaN, the lowest among equals; all NaN: 0 and NV (R54). -/
def argBest (least : Bool) (lanes : List Nat) : Nat × Flags :=
  let key (x : Nat) : Int := if least then -orderKey x else orderKey x
  let best := (lanes.zip (List.range lanes.length)).foldl (fun (b : Option (Nat × Nat)) x =>
    if (decode fp32 x.1).isNan then b
    else match b with
      | none => some x
      | some y => if key x.1 > key y.1 then some x else b) none
  match best with
  | some (_, i) => (i, {})
  | none => (0, { nv := true })

/-- Class 5, Reduction (R45, R54): the lanes at or above VALID are +0, −∞ or +∞. -/
def reduction (func : Nat) (mode : Mode) (valid : Nat) (a : List Nat) : Nat × Flags :=
  let full (x : Nat) := a.take valid ++ List.replicate (128 - valid) x
  match func with
  | 0 => tree (add mode) 7 (full 0)
  | 1 => tree (fun x y => pure (fmax x y)) 7 (full (inf32 true))
  | 2 => tree (fun x y => pure (fmin x y)) 7 (full (inf32 false))
  | 3 => argBest false (a.take valid)
  | _ => argBest true (a.take valid)

/-- Class 6, Movement (R95). -/
def movement (func valid : Nat) (a b : List Nat) : List Nat :=
  let cnt := b.getD 0 0
  (List.range valid).map (fun i =>
    match func with
    | 0 => let j := b.getD i 0; if j < valid then a.getD j 0 else 0
    | 1 => a.getD 0 0
    | 2 => if i < cnt then 0 else a.getD (i - cnt) 0
    | _ => if i + cnt < valid then a.getD (i + cnt) 0 else 0)

/-- Elements of w bits packed from bit 0 (R25), and unpacked. -/
def packBits (w : Nat) (l : List Nat) : Nat := l.foldr (fun x n => x % 2 ^ w + 2 ^ w * n) 0
def unpackBits (w n : Nat) (b : Bytes) : List Nat := let v := leNat b; (List.range n).map (fun i => bits v (w * i) w)

/-- The started VEC of a cell of the class, with its partition. -/
def started (s : State) (n cls : Nat) : Option (Nat × CellOp) :=
  match startedOp s n 4 3 with
  | some (p, o) => if Dsc.cls o.desc = cls then some (p, o) else none
  | none => none

/-- Runs a started VEC of a class whose result is a list of lanes from lane 0 and flags. -/
def run (n cls : Nat) (f : Desc → List Nat → List Nat → List Nat → List Nat × Flags) (s : State) : Out :=
  match started s n cls with
  | none => .next s
  | some (p, o) =>
    let d := o.desc
    let (vals, fl) := f d (reg s n (Dsc.va d)) (reg s n (Dsc.vb d)) (reg s n (Dsc.vc d))
    .next (((setReg s n (Dsc.vd d) vals).addFlags p fl).workDone n 4 o)

/-- Lane by lane over the valid lanes. -/
def lanewise (d : Desc) (f : Nat → Nat → Nat → Nat × Flags) (a b c : List Nat) : List Nat × Flags :=
  let r := (List.range (Dsc.valid d)).map (fun i => f (a.getD i 0) (b.getD i 0) (c.getD i 0))
  (r.map (·.1), Flags.all (r.map (·.2)))

/-- Byte addresses in the staging store of the scale and of the elements of an MX block of a group (R28, R95). -/
def mxBlock (fmt sa blk : Nat) : Nat × Nat := (32 * sa + blk, 32 * sa + 32 + blk * (4 * elemBits fmt))

end Vec

/-- VEC, class 0 Simple FP32 (R43, R95). -/
def execVecSimpleFp32 (n : Nat) (s : State) : Out :=
  Vec.run n 0 (fun d a b c => Vec.lanewise d (Vec.simple (Dsc.func d) (Arith.modeOf (Dsc.vrnd d))) a b c) s

/-- VEC, class 1 Integer (R95); no flag: an addition here is no accumulation (R46). -/
def execVecInteger (n : Nat) (s : State) : Out :=
  Vec.run n 1 (fun d a b c => Vec.lanewise d (fun x y _ => (Vec.integer (Dsc.func d) x y, {})) a b c) s

/-- VEC, class 2 Conversion (R34, R35, R95). -/
def execVecConversion (n : Nat) (s : State) : Out :=
  Vec.run n 2 (fun d a _ _ =>
    Vec.conversion (Dsc.func d) (Dsc.vfmt d) (Arith.modeOf (Dsc.vrnd d)) (Dsc.vsat d) (Dsc.vsmode d) (Dsc.valid d) a) s

/-- VEC, class 3 Divide and root (R43, R95). -/
def execVecDivideRoot (n : Nat) (s : State) : Out :=
  Vec.run n 3 (fun d a b c => Vec.lanewise d (fun x y _ =>
    if Dsc.func d = 0 then Arith.div (Arith.modeOf (Dsc.vrnd d)) x y else Arith.sqrt (Arith.modeOf (Dsc.vrnd d)) x) a b c) s

/-- VEC, class 4 Elementary (R44, R95). -/
def execVecElementary (n : Nat) (s : State) : Out :=
  Vec.run n 4 (fun d a b c => Vec.lanewise d (fun x _ _ => Arith.elementary (Dsc.func d) x) a b c) s

/-- VEC, class 5 Reduction (R45, R54, R95): the result goes to lane 0 of VD. -/
def execVecReduction (n : Nat) (s : State) : Out :=
  Vec.run n 5 (fun d a _ _ =>
    let (r, f) := Vec.reduction (Dsc.func d) (Arith.modeOf (Dsc.vrnd d)) (Dsc.valid d) a
    ([r], f)) s

/-- VEC, class 6 Movement (R95). -/
def execVecMovement (n : Nat) (s : State) : Out :=
  Vec.run n 6 (fun d a b _ => (Vec.movement (Dsc.func d) (Dsc.valid d) a b, {})) s

namespace Vec

open Arith

/-- A load's lanes, or none when an uncorrectable error delivers nothing (R57, R95). -/
def load (s : State) (n : Nat) (d : Desc) : Option (List Nat × Flags) × State :=
  let fmt := Dsc.vfmt d
  let valid := Dsc.valid d
  let w := elemBits fmt
  if isMx fmt then
    (List.range ((valid + 31) / 32)).foldl (fun (acc : Option (List Nat × Flags) × State) j =>
      match acc with
      | (none, s) => (none, s)
      | (some (vals, fl), s) =>
        let (sc, el) := mxBlock fmt (Dsc.vsa d) (4 * Dsc.quad d + j)
        match s.ssFetch n sc 1 with
        | (none, s) => (none, s)
        | (some scale, s) =>
          match s.ssFetch n el (4 * w) with
          | (none, s) => (none, s)
          | (some b, s) =>
            let r := (unpackBits w 32 b).map (fun x => toF32 (modeOf (Dsc.vrnd d)) (mxValue fmt (u8 scale 0) x))
            let keep := min 32 (valid - 32 * j)
            (some (vals ++ (r.take keep).map (·.1), fl.or (Flags.all ((r.take keep).map (·.2)))), s))
      (some ([], {}), s)
  else
    match s.ssFetch n (32 * Dsc.vsa d) ((valid * w + 7) / 8) with
    | (none, s) => (none, s)
    | (some b, s) =>
      let els := unpackBits w valid b
      let r := els.map (fun x =>
        if isInt fmt then (ofInt 32 (toInt w x), {}) else toF32 (modeOf (Dsc.vrnd d)) (valueOf fmt x))
      (some (r.map (·.1), Flags.all (r.map (·.2))), s)

/-- A store's effect on the staging store; bits of a last byte that no valid lane fills keep their values (R95). -/
def store (s : State) (n : Nat) (d : Desc) (a : List Nat) : State × Flags :=
  let fmt := Dsc.vfmt d
  let valid := Dsc.valid d
  let w := elemBits fmt
  let base := 262144 * n
  if isMx fmt then
    let bs := blocks valid a
    (bs.zip (List.range bs.length)).foldl (fun (acc : State × Flags) e =>
      let (sc, els, f) := mxEncode fmt (Dsc.vsmode d) e.1
      let (sa, ea) := mxBlock fmt (Dsc.vsa d) (4 * Dsc.quad d + e.2)
      ((acc.1.ssWrite (base + sa) (le 1 sc)).ssWrite (base + ea) (le (4 * w) (packBits w els)), acc.2.or f)) (s, {})
  else
    let r := (a.take valid).map (fun x =>
      convert fmt (modeOf (Dsc.vrnd d)) (Dsc.vsat d) (if isInt fmt then Val.ofInt (toInt 32 x) else decode fp32 x))
    let at_ := base + 32 * Dsc.vsa d
    let nb := (valid * w + 7) / 8
    let old := leNat (Memory.read s.mem.ss at_ nb)
    let new := packBits w (r.map (·.1)) + old / 2 ^ (valid * w) * 2 ^ (valid * w)
    (s.ssWrite at_ (le nb new), Flags.all (r.map (·.2)))

end Vec

/-- VEC, class 7 Memory (R95): a load into VD or a store from VA. -/
def execVecMemory (n : Nat) (s : State) : Out :=
  match Vec.started s n 7 with
  | none => .next s
  | some (p, o) =>
    let d := o.desc
    if Dsc.func d = 0 then
      match Vec.load s n d with
      | (none, s) => .next (s.killOp n o.id)
      | (some (vals, f), s) => .next (((Vec.setReg s n (Dsc.vd d) vals).addFlags p f).workDone n 4 o)
    else
      let (s, f) := Vec.store s n d (Vec.reg s n (Dsc.va d))
      .next ((s.addFlags p f).workDone n 4 o)

end Sys2Proof.Machine
end

