-- ==== Sys2Proof/Machine/Engines.lean ====
section
/-!
DEFINITION. The matrix engines (R38 to R42, R49 to R52, R92 to R94) with window addressing for convolution (R228 to
R234): the operands of a tile operation, the tile operation, and the drain.
-/
namespace Sys2Proof.Machine

namespace Engine

open Arith

/-- Values of the first K elements of an operand row (R25 to R28, R92). -/
def rowValues (fmt k : Nat) (b : Bytes) : List Val :=
  let w := elemBits fmt
  if isMx fmt then
    (List.range ((k + 31) / 32)).flatMap (fun blk =>
      let g := slice b (blk / 32 * groupBytes fmt) (groupBytes fmt)
      let sc := u8 g (blk % 32)
      let els := Vec.unpackBits w (min 32 (k - 32 * blk)) (slice g (32 + blk % 32 * (4 * w)) (4 * w))
      els.map (mxValue fmt sc))
  else (Vec.unpackBits w k b).map (valueOf fmt)

/-- The integer that a value of the integer family is. -/
def intOf (v : Val) : Int := v.sm

/-- Reads byte ranges of a Pan page space or of the staging store of a cell, each once; none when an uncorrectable error
delivers nothing (R57, R137). Addresses are Pan bytes, or bytes of the cell's staging store. -/
def fetchAll (s : State) (fromPan : Bool) (n : Nat) : List (Nat × Nat) → Bool × State
  | [] => (true, s)
  | (a, len) :: t =>
    match (if fromPan then s.panFetch a len else s.ssFetch n a len) with
    | (none, s) => (false, s)
    | (some _, s) => fetchAll s fromPan n t

/-- Bytes of an operand space after its fetch. -/
def spaceRead (s : State) (fromPan : Bool) (n a len : Nat) : Bytes :=
  if fromPan then Memory.read s.mem.pan a len else Memory.read s.mem.ss (262144 * n + a) len

/-- Byte address of an operand of engine e: the step is added to the 17-bit address as a whole (R93). -/
def operandAddr (n pan : Nat) (fromPan : Bool) (addr e step : Nat) : Nat :=
  let a := addr + e * step
  if fromPan then pageOf n pan (a / 4096) * pageBytes + a % 4096 * 32 else a * 32

-- Window parameters (R230 to R233).

def ih (d : Desc) : Nat := fld d 160 8 + 1
def iw (d : Desc) : Nat := fld d 168 8 + 1
def kfh (d : Desc) : Nat := fld d 176 6 + 1
def kfw (d : Desc) : Nat := fld d 182 6 + 1
def py (d : Desc) : Nat := fld d 188 3
def px (d : Desc) : Nat := fld d 191 3
def sh (d : Desc) : Nat := fld d 194 4 + 1
def sw (d : Desc) : Nat := fld d 198 4 + 1
def dh (d : Desc) : Nat := fld d 202 6 + 1
def dw (d : Desc) : Nat := fld d 208 6 + 1
def pt (d : Desc) : Nat := fld d 214 7
def pb (d : Desc) : Nat := fld d 221 7
def pl (d : Desc) : Nat := fld d 228 7
def pr (d : Desc) : Nat := fld d 235 7
def pmode (d : Desc) : Nat := fld d 242 2
def opix (d : Desc) : Nat := fld d 244 12

/-- Rows and columns of taps of the pass (R231). -/
def kh (d : Desc) : Nat := min 7 (kfh d - 7 * py d)
def kw (d : Desc) : Nat := min 7 (kfw d - 7 * px d)

/-- EH of R232 for one dimension, and the output size. -/
def extent (pmode i st dil kf before after : Nat) : Int :=
  let v : Nat := if pmode = 3 then (i - 1) * st + 1 else i
  ((v + before + after : Nat) : Int) - ((dil * (kf - 1) : Nat) : Int)
def outSize (pmode i st dil kf before after : Nat) : Int :=
  let e := extent pmode i st dil kf before after
  if pmode = 3 then e else (e - 1) / (st : Int) + 1

def oh (d : Desc) : Int := outSize (pmode d) (ih d) (sh d) (dh d) (kfh d) (pt d) (pb d)
def ow (d : Desc) : Int := outSize (pmode d) (iw d) (sw d) (dw d) (kfw d) (pl d) (pr d)

/-- The row (or column) of the map that a tap reads, or none for +0 (R233). -/
def tapAt (pmode i st dil before o kpos : Nat) : Option Nat :=
  if pmode = 3 then
    let v : Int := (o : Int) - before + (kpos * dil : Nat)
    if 0 ≤ v ∧ v < ((i - 1) * st + 1 : Nat) ∧ v % (st : Int) = 0 then some (v / (st : Int)).toNat else none
  else
    let y : Int := (o * st : Nat) - (before : Int) + (kpos * dil : Nat)
    if 0 ≤ y ∧ y < (i : Int) then some y.toNat
    else match pmode with
      | 0 => none
      | 1 => some (if y < 0 then 0 else i - 1)
      | _ => some (if y < 0 then (-y).toNat else (2 * ((i : Int) - 1) - y).toNat)

/-- Channels of the map: K = KH × KW × CP (R231). -/
def cp (d : Desc) : Nat := Dsc.k d / (kh d * kw d)

/-- Units of one pixel row (R228). -/
def pixelUnits (fmt : Nat) : Nat := if elemBits fmt = 16 then 2 else 1

/-- For a tile row, the 32-channel pieces of A in reduction order: the byte offset of each from the map's base, or none
for padding (R228, R231, R233, R234). -/
def windowRow (d : Desc) (r : Nat) : List (Option Nat) :=
  let u := pixelUnits (Dsc.fmta d)
  let w := (ow d).toNat
  let p := opix d + r
  let oy := p / w
  let ox := p % w
  (List.range (kh d)).flatMap (fun ky => (List.range (kw d)).flatMap (fun kx =>
    let y := tapAt (pmode d) (ih d) (sh d) (dh d) (pt d) oy (7 * py d + ky)
    let x := tapAt (pmode d) (iw d) (sw d) (dw d) (pl d) ox (7 * px d + kx)
    (List.range (cp d / 32)).map (fun g =>
      match y, x with
      | some y, some x => some (((g * ih d + y) * iw d + x) * u * 32)
      | _, _ => none)))

/-- Addresses of the two operands of engine e (R93). -/
def baseA (n e : Nat) (d : Desc) : Nat := operandAddr n (Dsc.apan d) (Dsc.asrc d) (Dsc.aaddr d) e (Dsc.astep d)
def baseB (n e : Nat) (d : Desc) : Nat := operandAddr n (Dsc.bpan d) (Dsc.bsrc d) (Dsc.baddr d) e (Dsc.bstep d)

/-- Byte ranges of operand A: what its windows reach, each once, or its rows as one range (R92, R228 to R234). -/
def rangesA (n e : Nat) (d : Desc) : List (Nat × Nat) :=
  if Dsc.amode d = 1 then
    (((List.range (Dsc.mm d)).flatMap (fun r => (windowRow d r).filterMap id)).eraseDups).map
      (fun o => (baseA n e d + o, pixelUnits (Dsc.fmta d) * 32))
  else [(baseA n e d, Dsc.mm d * rowBytes (Dsc.fmta d) (Dsc.k d))]

/-- Byte range of operand B (R92). -/
def rangesB (n e : Nat) (d : Desc) : List (Nat × Nat) := [(baseB n e d, Dsc.nn d * rowBytes (Dsc.fmtb d) (Dsc.k d))]

/-- An operand of engine e lies in a Pan row that is being copied: the tile operation waits (R139). -/
def waitsForRow (s : State) (n e : Nat) (d : Desc) : Bool :=
  (Dsc.asrc d && (rangesA n e d).any (fun r => s.rowBusy r.1 r.2))
    || (Dsc.bsrc d && (rangesB n e d).any (fun r => s.rowBusy r.1 r.2))

/-- Values of operand A for each tile row, after the byte ranges it needs were fetched (R92, R228 to R234). -/
def operandA (s : State) (n e : Nat) (d : Desc) : Option (List (List Val)) × State :=
  let fmt := Dsc.fmta d
  let base := baseA n e d
  if Dsc.amode d = 1 then
    let u := pixelUnits fmt * 32
    let rows := (List.range (Dsc.mm d)).map (windowRow d)
    match fetchAll s (Dsc.asrc d) n (rangesA n e d) with
    | (false, s) => (none, s)
    | (true, s) =>
      (some (rows.map (fun r => r.flatMap (fun o => match o with
        | some o => (Vec.unpackBits (elemBits fmt) 32 (spaceRead s (Dsc.asrc d) n (base + o) u)).map (valueOf fmt)
        | none => List.replicate 32 (.fin false 0 0)))), s)
  else
    let rb := rowBytes fmt (Dsc.k d)
    match fetchAll s (Dsc.asrc d) n (rangesA n e d) with
    | (false, s) => (none, s)
    | (true, s) =>
      (some ((List.range (Dsc.mm d)).map (fun i =>
        rowValues fmt (Dsc.k d) (spaceRead s (Dsc.asrc d) n (base + i * rb) rb))), s)

/-- Values of operand B for each tile column (R92). -/
def operandB (s : State) (n e : Nat) (d : Desc) : Option (List (List Val)) × State :=
  let rb := rowBytes (Dsc.fmtb d) (Dsc.k d)
  let base := baseB n e d
  match fetchAll s (Dsc.bsrc d) n (rangesB n e d) with
  | (false, s) => (none, s)
  | (true, s) =>
    (some ((List.range (Dsc.nn d)).map (fun i =>
      rowValues (Dsc.fmtb d) (Dsc.k d) (spaceRead s (Dsc.bsrc d) n (base + i * rb) rb))), s)

/-- Index of the first word of an accumulator tile (R51). -/
def tileBase (n e acc : Nat) : Nat := ((4 * n + e) * 2 + acc) * 1024

/-- One element of the tile: the chunks of R38 in ascending order, by R39 or R41. -/
def element (int : Bool) (c : Nat) (acc : Nat) (a b : List Val) : Nat × Flags :=
  let ch := pieces c (a.zip b)
  if int then dotI acc (ch.map (fun l => l.map (fun x => (intOf x.1, intOf x.2)))) else dotF acc ch

/-- The 1,024 words of the tile after the operation, and the flags (R50, R93). -/
def tile (d : Desc) (old : List Nat) (as_ bs : List (List Val)) : List Nat × Flags :=
  let c := chunkLen (Dsc.fmta d) (Dsc.fmtb d)
  let int := isInt (Dsc.fmta d)
  let r := (List.range 1024).map (fun i =>
    let start := if Dsc.clr d then 0 else old.getD i 0
    match as_[i / 32]?, bs[i % 32]? with
    | some a, some b => element int c start a b
    | _, _ => (start, {}))
  (r.map (·.1), Flags.all (r.map (·.2)))

end Engine

/-- MATMUL: the tile operation of a started MATMUL on engine e (R39, R41, R50, R93). -/
def execMatmul (n e : Nat) (s : State) : Out :=
  match startedOp s n e 1 with
  | none => .next s
  | some (p, o) =>
    let d := o.desc
    if Engine.waitsForRow s n e d then .next s
    else match Engine.operandA s n e d with
    | (none, s) => .next (s.killOp n o.id)
    | (some as_, s) =>
      match Engine.operandB s n e d with
      | (none, s) => .next (s.killOp n o.id)
      | (some bs, s) =>
        let base := Engine.tileBase n e (Dsc.acc d)
        let old := (Sp.read 0 s.mem.acc base 1024).map (·.toNat)
        let (new, fl) := Engine.tile d old as_ bs
        let s := s.setMem (fun m => { m with acc := Sp.write 0 m.acc base (new.map (BitVec.ofNat 32)) })
        let t := 2 * e + Dsc.acc d
        let s := s.onCell n (fun c => { c with
          lastTile := Sp.set none c.lastTile e (some c.beats)
          intTiles := if Arith.isInt (Dsc.fmta d) then addOnce t c.intTiles else c.intTiles.filter (· ≠ t) })
        .next ((s.addFlags p fl).workDone n e o)

namespace Engine

open Arith

/-- One row of 32 values of a drained tile in the output format (R92, R94). -/
def drainRow (fmt : Nat) (mode : Mode) (sat smode int : Bool) (row : List Nat) : Bytes × Flags :=
  let vals := row.map (fun x => if int then Val.ofInt (toInt 32 x) else decode fp32 x)
  let w := elemBits fmt
  if isMx fmt then
    -- MX takes FP32 values (R31); an INT32 tile is converted to FP32 first (R35)
    let fs := vals.map (fun v => convert 0 mode false v)
    let (sc, els, f) := mxEncode fmt smode (fs.map (·.1))
    -- one block with 31 blocks of padding, scale 0x7F, in the group (R29)
    (le 1 sc ++ List.replicate 31 0x7F ++ le (4 * w) (Vec.packBits w els) ++ zeros (31 * (4 * w)),
      f.or (Flags.all (fs.map (·.2))))
  else
    let r := vals.map (convert fmt mode sat)
    (fit (rowBytes fmt 32) (le (4 * w) (Vec.packBits w (r.map (·.1)))), Flags.all (r.map (·.2)))

end Engine

/-- DRAIN: converts the accumulator tile of engine e and writes all 32 × 32 positions to the staging store or to eight
vector registers (R50, R51, R94). -/
def execDrain (n e : Nat) (s : State) : Out :=
  match startedOp s n e 2 with
  | none => .next s
  | some (p, o) =>
    let d := o.desc
    let tile := (Sp.read 0 s.mem.acc (Engine.tileBase n e (Dsc.acc d)) 1024).map (·.toNat)
    let int := (s.cell n).intTiles.contains (2 * e + Dsc.acc d)
    let mode := Arith.modeOf (Dsc.drRnd d)
    let rows := (Arith.pieces 32 tile).map (Engine.drainRow (Dsc.drFmt d) mode (Dsc.drSat d) (Dsc.drSmode d) int)
    let fl := Flags.all (rows.map (·.2))
    let data := rows.flatMap (·.1)
    let s := if Dsc.drDest d then
        (List.range 8).foldl (fun s i =>
          Vec.setReg s n (Dsc.drVreg d + i) (Vec.unpackBits 32 128 (slice data (512 * i) 512))) s
      else s.ssWrite (262144 * n + 32 * (Dsc.drSa d + e * Dsc.drDstep d)) data
    .next ((s.addFlags p fl).workDone n e o)

end Sys2Proof.Machine
end

