-- ==== Sys2Proof/Machine/PlateCheck.lean ====
section
/-!
DEFINITION. The plate checker (R76 to R82, R86 to R106, R115, R178, R235, R364): the checks of R104 in order, each with the
byte offset of the field that failed, and the record of a plate that passes. Where one check finds several failures, the one
at the lowest offset is reported (log 31).
-/
namespace Sys2Proof.Machine

namespace PlateCheck

open Arith

/-- The offset of the first failing item of a list, in the order of the list. -/
def first (l : List (Bool × Nat)) : Option Nat := (l.find? (·.1)).map (·.2)

/-- The least of the offsets found. -/
def least (l : List Nat) : Option Nat := match l with | [] => none | a :: t => some (t.foldl min a)

-- Header (R76).

def segOff (b : Bytes) : Nat := u32 b 0x1C
def segBytes (b : Bytes) : Nat := u32 b 0x20
def rampOff (b : Bytes) : Nat := u32 b 0x28
def rampCount (b : Bytes) : Nat := u16 b 0x2C
def preslots (b : Bytes) : Nat := u16 b 0x2E
def nbind (b : Bytes) : Nat := u32 b 0x30
def shapeH (b : Bytes) : Nat := u8 b 8
def shapeW (b : Bytes) : Nat := u8 b 9
def pinned (b : Bytes) : Bool := (u8 b 10).testBit 0

/-- The first byte outside the header and the two sections, or in a reserved header field, that is not 0. -/
def strayByte (b : Bytes) : Option Nat :=
  let inside (i : Nat) : Bool :=
    (decide (i < 0x100) && !((decide (0x34 ≤ i) && decide (i < 0x40)) || (decide (0x80 ≤ i) && decide (i < 0xA0))))
      || (decide (segOff b ≤ i) && decide (i < segOff b + segBytes b))
      || (decide (rampOff b ≤ i) && decide (i < rampOff b + 8 * rampCount b))
  (b.zipIdx.find? (fun e => e.1 != 0 && !inside e.2)).map (·.2)

/-- PLATE_HEADER. -/
def header (b : Bytes) : Option Nat :=
  let len := b.length
  let so := segOff b
  let sb := segBytes b
  let ro := rampOff b
  let rc := rampCount b
  (first [
    (decide (u32 b 0 ≠ 0x45544C50), 0), (decide (u16 b 4 ≠ 1), 4), (decide (u16 b 6 ≠ 0x100), 6),
    (shapeH b == 0 || decide (shapeH b > 4), 8), (shapeW b == 0 || decide (shapeW b > 4), 9),
    (decide (u16 b 10 / 2 ≠ 0), 10),
    (decide (u32 b 0x18 ≠ len) || len % 8 != 0 || decide (len < 0x100) || decide (len > 2 ^ 24), 0x18),
    (so % 8 != 0 || decide (so < 0x100) || decide (so > len), 0x1C),
    (decide (so + sb > len), 0x20),
    ((rc == 0 && ro != 0) || (rc != 0 && (ro % 8 != 0 || decide (ro < 0x100) || decide (ro + 8 * rc > len)
      || (decide (ro < so + sb) && decide (so < ro + 8 * rc)))), 0x28),
    (decide (rc > 4095), 0x2C), (decide (preslots b > nbind b), 0x2E), (decide (nbind b > 65536), 0x30)]).or (strayByte b)

/-- The signed message of a plate: signature bytes taken as 0 (R77). -/
def message (b : Bytes) : Bytes := b.take 0xC0 ++ zeros 64 ++ b.drop 0x100

-- Segments.

/-- A segment of the stream: offset, header and descriptors with their offsets. -/
structure Seg where
  off : Nat := 0
  hdr : Nat := 0
  ds : List (Nat × Desc) := []
  deriving DecidableEq, Repr

def Seg.dlen (g : Seg) : Nat := bits g.hdr 0 7
def Seg.idle (g : Seg) : Nat := bits g.hdr 8 12
def Seg.pbeat (g : Seg) : Nat := bits g.hdr 32 32

/-- Descriptors of a segment with their offsets. -/
def descs : Nat → Nat → Bytes → List (Nat × Desc)
  | 0, _, _ => []
  | _, _, [] => []
  | f + 1, off, b =>
    let n := if (u8 b 0).testBit 5 then 32 else 16
    (off, BitVec.ofNat 256 (leNat (b.take n))) :: descs f (off + n) (b.drop n)

/-- The segments from an offset up to `stop`, and the offset at which no further segment can be read. -/
def segments (b : Bytes) (stop : Nat) : Nat → Nat → List Seg × Nat
  | 0, off => ([], off)
  | f + 1, off =>
    let h := u64 b off
    let n := bits h 0 7
    if off + 8 > stop ∨ n > 64 ∨ off + 8 + 16 * n > stop then ([], off)
    else
      let (t, e) := segments b stop f (off + 8 + 16 * n)
      ({ off := off, hdr := h, ds := descs n (off + 8) (slice b (off + 8) (16 * n)) } :: t, e)

/-- The end of the segment stream, which lies inside the image (R76). -/
def streamEnd (b : Bytes) : Nat := min (segOff b + segBytes b) b.length

-- PLATE_ENCODING.

/-- Reserved fields of each operation: first bit and length (R86, R93 to R103). -/
def reserved (opc : Nat) : List (Nat × Nat) :=
  (30, 2) :: match opc with
  | 1 => [(124, 4), (154, 6)]
  | 2 => [(46, 8), (90, 38)]
  | 3 => [(47, 7), (92, 4), (112, 16)]
  | 4 | 5 => [(51, 3), (76, 1), (90, 6), (109, 19)]
  | 6 => [(43, 11), (89, 7), (122, 6)]
  | 7 => [(81, 15), (113, 15), (151, 105)]
  | 8 => [(36, 18), (96, 32)]
  | 9 => [(37, 17), (64, 64)]
  | 10 => [(48, 6), (64, 64)]
  | 11 | 12 => [(48, 6), (93, 35)]
  | _ => [(32, 22), (64, 64)]

/-- Functions of each VEC class (R95). -/
def vecFuncs (cls : Nat) : Nat := [12, 13, 3, 2, 11, 5, 4, 2].getD cls 0

/-- Fields of VEC, by their first bit (R95): VD, VA, VB, VC, FMT, RND, SAT, SMODE, SA, QUAD. -/
def vecFields : List (Nat × Nat) :=
  [(64, 5), (69, 5), (74, 5), (79, 5), (39, 4), (43, 2), (45, 1), (46, 1), (96, 13), (109, 3)]

/-- First bits of the fields that a VEC function uses (R95). -/
def vecUsed (d : Desc) : List Nat :=
  let mx := isMx (Dsc.vfmt d)
  let f := Dsc.func d
  match Dsc.cls d with
  | 0 => if f ≤ 2 then [64, 69, 74, 43] else if f = 3 then [64, 69, 74, 79, 43]
         else if f = 6 ∨ f = 7 then [64, 69] else if f = 11 then [64, 69, 74, 79] else [64, 69, 74]
  | 1 => [64, 69, 74]
  | 2 => if f ≠ 0 then [64, 69, 43] else if mx then [64, 69, 39, 46] else [64, 69, 39, 43, 45]
  | 3 => if f = 0 then [64, 69, 74, 43] else [64, 69, 43]
  | 4 => [64, 69]
  | 5 => if f = 0 then [64, 69, 43] else [64, 69]
  | 6 => if f = 1 then [64, 69] else [64, 69, 74]
  | _ => if f = 0 then (if mx then [64, 39, 96, 109] else [64, 39, 96])
         else if mx then [69, 39, 46, 96, 109] else [69, 39, 43, 45, 96]

/-- The descriptor selects the whole partition of the shape (R87). -/
def whole (h w : Nat) (d : Desc) : Bool :=
  Dsc.row0 d == 0 && Dsc.col0 d == 0 && Dsc.row1 d + 1 == 8 * h && Dsc.col1 d + 1 == 8 * w && fld d 26 4 == 0

/-- Encoding failures of one descriptor: failure and first bit of the field, bits rising. -/
def descEncoding (h w : Nat) (d : Desc) : List (Bool × Nat) :=
  let o := Dsc.opc d
  let legal := (1 ≤ o && o ≤ 12) || o == 0x1F
  let long := o == 1 || o == 7
  let seq := Dsc.isSeq d
  [(!legal, 0), (Dsc.long d != long, 5), (seq && !whole h w d, 6)]
    ++ (reserved o).map (fun r => (fld d r.1 r.2 != 0, r.1))
    ++ [(o == 7 && Dsc.kind d == 3, 32), (o == 6 && decide (Dsc.gmode d ≥ 2), 36),
        (o == 3 && decide (Dsc.func d ≥ vecFuncs (Dsc.cls d)), 35), (o == 1 && decide (Dsc.amode d ≥ 2), 52),
        (seq && fld d 54 10 != 0, 54)]
    ++ (if o == 3 then vecFields.map (fun e => (!(vecUsed d).contains e.1 && fld d e.1 e.2 != 0, e.1)) else [])

/-- Two descriptors name one issuing unit of a cell that both select (R89). -/
def sharesUnit (h w : Nat) (a b : Desc) : Bool :=
  ((if Dsc.isSeq a then [14] else Dsc.units a).any (fun u => (if Dsc.isSeq b then [14] else Dsc.units b).contains u))
    && (List.range (8 * h)).any (fun r => (List.range (8 * w)).any (fun c => Dsc.selects a r c && Dsc.selects b r c))

/-- PLATE_ENCODING: ramp entries (R364), segment headers (R81, R82) and descriptors (R86, R88, R89, R95). A segment that cannot be
read to its end fails at its DLEN, and the last segment is known only where every segment can be read. Where the last PBEAT follows
from the segments before it and BEATS does not, BEATS is the field that failed (log 139). -/
def encoding (b : Bytes) (gs : List Seg) (stop : Nat) : Option Nat :=
  let h := shapeH b
  let w := shapeW b
  let ramps := (List.range (rampCount b)).filterMap (fun i =>
    let o := rampOff b + 8 * i
    if u64 b o / 2 ^ 20 ≠ 0 then some (o + 2) else none)
  let n := gs.length
  let beats := gs.foldl (fun (a : List Nat × Nat) g => (a.1 ++ [a.2], a.2 + 1 + g.idle)) ([], 0)
  let segFails := gs.zipIdx.flatMap (fun (g, i) =>
    let last := decide (i + 1 = n) && stop == segOff b + segBytes b
    let head := [(bit (word g.hdr) 7, g.off), (bits g.hdr 20 12 != 0, g.off + 2),
      (g.pbeat != beats.1.getD i 0, g.off + 4), (last && decide (g.idle ≠ 0), g.off + 1),
      (last && !(g.ds.length == 1 && g.ds.all (fun d => Dsc.opc d.2 == 0x1F)), g.off),
      (last && g.pbeat == beats.1.getD i 0 && decide (g.pbeat + 1 ≠ u32 b 0x24), 0x24)]
    let units := g.ds.foldl (fun a d => a + (if Dsc.long d.2 then 2 else 1)) 0
    let ds := g.ds.zipIdx.flatMap (fun ((o, d), j) =>
      ((descEncoding h w d).map (fun e => (e.1, o + e.2 / 8)))
        ++ [(Dsc.opc d == 0x1F && (!last || g.ds.length != 1), o),
            ((g.ds.take j).any (fun e => sharesUnit h w e.2 d), o),
            (decide (j + 1 = g.ds.length) && units != g.dlen, o)])
    (head ++ ds).filterMap (fun e => if e.1 then some e.2 else none))
  let tail := if stop ≠ segOff b + segBytes b ∨ n = 0 then [stop] else []
  least (ramps ++ segFails ++ tail)

-- FORMAT_CODE and FORMAT_PAIR.

/-- Format-code fields of a descriptor: value and first bit. -/
def formats (d : Desc) : List (Nat × Nat) :=
  match Dsc.opc d with
  | 1 => [(Dsc.fmta d, 38), (Dsc.fmtb d, 42)]
  | 2 => [(Dsc.drFmt d, 38)]
  | 3 => [(Dsc.vfmt d, 39)]
  | 6 => [(Dsc.qfmt d, 39)]
  | _ => []

/-- All descriptors of the plate, with their segment's index. -/
def all (gs : List Seg) : List (Nat × Nat × Desc) := gs.zipIdx.flatMap (fun (g, i) => g.ds.map (fun d => (i, d.1, d.2)))

def formatCode (ds : List (Nat × Nat × Desc)) : Option Nat :=
  least (ds.flatMap (fun (_, o, d) => (formats d).filterMap (fun f =>
    if f.1 = 15 ∨ (Dsc.opc d = 1 ∧ (f.1 = 0 ∨ f.1 = 8)) then some (o + f.2 / 8) else none)))

def formatPair (ds : List (Nat × Nat × Desc)) : Option Nat :=
  least (ds.filterMap (fun (_, o, d) =>
    if Dsc.opc d = 1 ∧ isInt (Dsc.fmta d) ≠ isInt (Dsc.fmtb d) then some (o + 4) else none))

-- Accesses (R91 to R99, R103, R178, R229).

/-- How an access touches its bytes; `inbound` is MOVE data in the destination cell (R106). -/
inductive Mode where
  | read | write | inbound
  deriving DecidableEq, Repr

/-- An access: issuing unit (a GATHER's accesses, with 9, belong to all its lanes), space (0 the staging store, 1 + 32 × Pan + slot a page), bytes from `lo` to before `hi`, first
bit of its address field, and whether it is a window map (R229). -/
structure Access where
  unit : Nat := 13
  space : Nat := 0
  lo : Nat := 0
  hi : Nat := 0
  mode : Mode := .read
  field : Nat := 0
  window : Bool := false
  deriving DecidableEq, Repr

/-- Space and first byte of a 17-bit address with its step added (R91, R93). -/
def place (inPan : Bool) (pan a : Nat) : Nat × Nat :=
  if inPan then (1 + 32 * pan + (if a / 4096 < 32 then a / 4096 else 1000), 32 * (a % 4096)) else (0, 32 * a)

/-- Bytes of the map of a window operand (R228, R229). -/
def mapBytes (d : Desc) : Nat := Engine.cp d / 32 * Engine.ih d * Engine.iw d * Engine.pixelUnits (Dsc.fmta d) * 32

def accesses (d : Desc) : List Access :=
  let engines := (List.range 4).filter (fun e => (Dsc.emask d).testBit e)
  match Dsc.opc d with
  | 1 => engines.flatMap (fun e =>
      let (sa, a) := place (Dsc.asrc d) (Dsc.apan d) (Dsc.aaddr d + e * Dsc.astep d)
      let (sb, c) := place (Dsc.bsrc d) (Dsc.bpan d) (Dsc.baddr d + e * Dsc.bstep d)
      let win := Dsc.amode d == 1
      let la := if win then mapBytes d else Dsc.mm d * Engine.rowBytes (Dsc.fmta d) (Dsc.k d)
      [{ unit := e, space := sa, lo := a, hi := a + la, field := 64, window := win },
       { unit := e, space := sb, lo := c, hi := c + Dsc.nn d * Engine.rowBytes (Dsc.fmtb d) (Dsc.k d), field := 81 }])
  | 2 => if Dsc.drDest d then [] else engines.map (fun e =>
      let a := 32 * (Dsc.drSa d + e * Dsc.drDstep d)
      { unit := e, lo := a, hi := a + 32 * Engine.rowBytes (Dsc.drFmt d) 32, mode := .write, field := 64 })
  | 3 => if Dsc.cls d ≠ 7 then [] else
      let f := Dsc.vfmt d
      let m := if Dsc.func d = 0 then Mode.read else Mode.write
      let a := 32 * Dsc.vsa d
      if isMx f then
        let n := (Dsc.valid d + 31) / 32
        let (_, e) := Vec.mxBlock f (Dsc.vsa d) (4 * Dsc.quad d)
        [{ unit := 4, lo := a + 4 * Dsc.quad d, hi := a + 4 * Dsc.quad d + n, mode := m, field := 96 },
         { unit := 4, lo := e, hi := e + n * (4 * elemBits f), mode := m, field := 96 }]
      else [{ unit := 4, lo := a, hi := a + (Dsc.valid d * elemBits f + 7) / 8, mode := m, field := 96 }]
  | 4 | 5 =>
      let rd := Dsc.opc d == 4
      let n := 32 * Dsc.pLen d
      let u := 5 + Dsc.pan d
      { unit := u, lo := 32 * Dsc.pSa d, hi := 32 * Dsc.pSa d + n, mode := if rd then .write else .read, field := 77 }
        :: (if Dsc.pInd d then [] else
          [{ unit := u, space := 1 + 32 * Dsc.pan d + Dsc.pPage d % 32, lo := 32 * Dsc.poff d, hi := 32 * Dsc.poff d + n,
             mode := if rd then .read else .write, field := 64 }])
  | 6 => [{ unit := 9, lo := 32 * Dsc.qsa d, hi := 32 * Dsc.osa d, field := 96 },
          { unit := 9, lo := 32 * Dsc.osa d, hi := 262144, mode := .write, field := 109 }]
  | 7 => if Dsc.kind d = 2 ∧ Dsc.mInd d then [] else
      let n := 32 * Dsc.mLen d
      let (ss, a) := place (Dsc.ssp d) (Dsc.span d) (Dsc.saddr d)
      let (sd, c) := place (Dsc.dsp d) (Dsc.dpan d) (Dsc.daddr d)
      [{ space := ss, lo := a, hi := a + n, field := 64 }, { space := sd, lo := c, hi := c + n, mode := .inbound, field := 96 }]
  | 8 => if Dsc.cInd d then [] else
      [{ space := 1 + 32 * Dsc.cPan d + Dsc.ppage d % 32, lo := 0, hi := pageBytes, mode := if Dsc.dir d then .read else .write
         field := 64 }]
  | 11 => [{ lo := 32 * Dsc.sSa d, hi := 32 * Dsc.sSa d + Dsc.lenb d, mode := .write, field := 64 }]
  | 12 => [{ lo := 32 * Dsc.sSa d, hi := 32 * Dsc.sSa d + Dsc.lenb d, field := 64 }]
  | _ => []

/-- Binding slots that a descriptor names, with the mask of TYPE values the use accepts and the field's first bit (R164,
R198). -/
def slots (d : Desc) : List (Nat × Nat × Nat) :=
  match Dsc.opc d with
  | 4 | 5 => if Dsc.pInd d then [(Dsc.pPage d, 2, 35)] else []
  | 6 => (List.range ((Dsc.units d).length * Dsc.nseq d)).map (fun i => (Dsc.gslot d + i, 3, 64))
  | 7 => if Dsc.kind d = 2 ∧ Dsc.mInd d then [(Dsc.saddr d % 65536, 2, 64), (Dsc.daddr d % 65536, 2, 96)] else []
  | 8 => (if Dsc.cInd d then [(Dsc.ppage d, 2, 64)] else []) ++ [(Dsc.cslot d, 4, 80)]
  | 11 => [(Dsc.sslot d, 8, 32)]
  | 12 => [(Dsc.sslot d, 16, 32)]
  | _ => []

-- PLATE_RANGE.

/-- Limits of the field tables (R93 to R103, R178): failure and first bit of the field. A value that a table calls rejected and not
reserved (EMASK 0, K 0, LMASK 0, VALID, NSEQ) is a limit of the table (log 139). -/
def limits (rc : Nat) (d : Desc) : List (Bool × Nat) :=
  match Dsc.opc d with
  | 1 => [(Dsc.emask d == 0, 32), (!Dsc.asrc d && Dsc.apan d != 0, 48), (!Dsc.bsrc d && Dsc.bpan d != 0, 50),
      (Dsc.k d == 0, 98), (Dsc.amode d == 0 && fld d 160 96 != 0, 160)]
  | 2 => [(Dsc.emask d == 0, 32),
      (Dsc.drDest d && ((List.range 4).filter (fun e => (Dsc.emask d).testBit e)).length != 1, 32),
      (Dsc.drDest d && Dsc.drFmt d != 0 && Dsc.drFmt d != 8, 38),
      (Dsc.drDest d && (decide (Dsc.drVreg d > 24) || fld d 69 8 != 0), 64), (Dsc.drDest d && Dsc.drDstep d != 0, 77)]
  | 3 => [(Dsc.valid d == 0 || decide (Dsc.valid d > 128), 84)]
  | 4 | 5 => [(!Dsc.pInd d && decide (Dsc.pPage d ≥ 32), 35), (Dsc.pLen d == 0 || decide (Dsc.pLen d > 4096), 96),
      (decide (Dsc.poff d + Dsc.pLen d > 4096), 64)]
  | 6 => [(Dsc.lmask d == 0, 32), (Dsc.nseq d == 0 || decide (Dsc.nseq d > 256), 80), (decide (Dsc.qsa d ≥ Dsc.osa d), 96)]
  | 7 =>
      let k := Dsc.kind d
      [(k == 2 && !(Dsc.ssp d && Dsc.dsp d), 34), (!Dsc.ssp d && Dsc.span d != 0, 36), (!Dsc.dsp d && Dsc.dpan d != 0, 38),
       (k == 1 && Dsc.drel d, 40), (!Dsc.drel d && bit d 46, 41), (!Dsc.drel d && bit d 52, 47),
       (Dsc.drel d && Dsc.drow d == 32, 41), (Dsc.drel d && Dsc.dcol d == 32, 47), (k != 2 && Dsc.mInd d, 53),
       (k == 2 && Dsc.mInd d && bit d 80, 64), (k == 2 && Dsc.mInd d && bit d 112, 96),
       (Dsc.mLen d == 0 || decide (Dsc.mLen d > 4096) || (k == 2 && Dsc.mLen d != 4096), 128),
       (k != 1 && Dsc.brow1 d != 0, 141), (k != 1 && Dsc.bcol1 d != 0, 146)]
  | 8 => [(!Dsc.cInd d && decide (Dsc.ppage d ≥ 32), 64)]
  | 10 => [(Dsc.ramp d != 0xFFF && decide (Dsc.ramp d ≥ rc), 36)]
  | 11 => [(Dsc.lenb d == 0, 77)]
  | _ => []

/-- Destinations of a MOVE from the relative cell (r, c) (R98). -/
def dests (d : Desc) (r c : Nat) : List (Int × Int) :=
  if Dsc.kind d = 1 then
    (range2 (Dsc.drow d % 32) (Dsc.brow1 d)).flatMap (fun y =>
      (range2 (Dsc.dcol d % 32) (Dsc.bcol1 d)).map (fun x => (Int.ofNat y, Int.ofNat x)))
  else [Dsc.dest d r c]

/-- The relative cells of the shape that a descriptor selects. -/
def selected (h w : Nat) (d : Desc) : List (Nat × Nat) :=
  (List.range (8 * h)).flatMap (fun r => ((List.range (8 * w)).filter (fun c => Dsc.selects d r c)).map (fun c => (r, c)))

/-- Range failures of one descriptor: first bits of the fields. -/
def descRange (h w nb rc : Nat) (d : Desc) : List Nat :=
  let sel := [(decide (Dsc.row1 d < Dsc.row0 d) || decide (Dsc.row1 d ≥ 8 * h), 11),
    (decide (Dsc.col1 d < Dsc.col0 d) || decide (Dsc.col1 d ≥ 8 * w), 21)]
  let acc := (accesses d).map (fun a =>
    let bad := if a.space = 0 then decide (a.lo ≥ 262144) || (!a.window && decide (a.hi > 262144))
      else decide (a.space > 128) || (!a.window && decide (a.hi > pageBytes))
    (bad, a.field))
  let mv := if Dsc.opc d ≠ 7 then [] else
    [(Dsc.kind d == 1 && (decide (Dsc.brow1 d < Dsc.drow d % 32) || decide (Dsc.bcol1 d < Dsc.dcol d % 32)), 41),
     ((selected h w d).any (fun e => (dests d e.1 e.2).any (fun t =>
        decide (t.1 < 0) || decide (t.1 ≥ (8 * h : Nat)) || decide (t.2 < 0) || decide (t.2 ≥ (8 * w : Nat)))), 41)]
  let sl := (slots d).map (fun e => (decide (e.1 ≥ nb), e.2.2))
  (sel ++ limits rc d ++ acc ++ mv ++ sl).filterMap (fun e => if e.1 then some e.2 else none)

def range (b : Bytes) (ds : List (Nat × Nat × Desc)) : Option Nat :=
  let ramps := (List.range (rampCount b)).filterMap (fun i =>
    let o := rampOff b + 8 * i
    let v := u64 b o
    if bits v 0 4 > bits v 4 4 then some o else if bits v 16 4 = 0 then some (o + 2) else none)
  least (ramps ++ ds.flatMap (fun (_, o, d) =>
    (descRange (shapeH b) (shapeW b) (nbind b) (rampCount b) d).map (fun f => o + f / 8)))

-- PLATE_EVENT (R105, R115).

/-- Waits and posts on one channel in the descriptors of one segment: offsets of the fields. -/
def waitsOf (ch : Nat) (ds : List (Nat × Desc)) : List Nat :=
  ds.filterMap (fun d => if Dsc.wen d.2 && Dsc.wev d.2 == ch then some (d.1 + 7) else none)
def postsOf (ch : Nat) (ds : List (Nat × Desc)) : List Nat :=
  ds.filterMap (fun d => if Dsc.pen d.2 && Dsc.pev d.2 == ch then some (d.1 + 6) else none)

/-- The failing field for one cell and channel: a wait without a post in an earlier segment, more than 63 posts ahead, or a
post that no wait matches. -/
def channel (ch : Nat) : List (List (Nat × Desc)) → Nat → Nat → Nat → Option Nat
  | [], posts, waits, last => if posts = waits then none else some last
  | g :: t, posts, waits, last =>
    let w := waitsOf ch g
    let q := postsOf ch g
    if waits + w.length > posts then some (w.getD (posts - waits) 0)
    else if posts + q.length - (waits + w.length) > 63 then some (q.getLastD 0)
    else channel ch t (posts + q.length) (waits + w.length) (q.getLastD last)

def events (h w : Nat) (gs : List Seg) : Option Nat :=
  least ((List.range (8 * h)).flatMap (fun r => (List.range (8 * w)).flatMap (fun c =>
    let mine := gs.map (fun g => g.ds.filter (fun d => Dsc.selects d.2 r c))
    (List.range 16).filterMap (fun ch => channel ch mine 0 0 0))))

-- PLATE_HAZARD (R56, R106).

/-- A descriptor as a cell that it selects sees it. -/
structure Item where
  seg : Nat := 0
  off : Nat := 0
  d : Desc := 0
  deriving DecidableEq, Repr

def Item.wait (t : Item) : Option Nat := if Dsc.wen t.d then some (Dsc.wev t.d) else none
def Item.post (t : Item) : Option Nat := if Dsc.pen t.d then some (Dsc.pev t.d) else none

/-- Items of one relative cell in issue order. -/
def items (ds : List (Nat × Nat × Desc)) (r c : Nat) : List Item :=
  (ds.filter (fun e => Dsc.selects e.2.2 r c && !Dsc.isSeq e.2.2)).map (fun e => { seg := e.1, off := e.2.1, d := e.2.2 })

/-- An item and a unit of it, as one number. -/
def node (i u : Nat) : Nat := 16 * i + u

/-- Nodes of an item: one for each issuing unit that it names (R88). -/
def nodesOf (i : Nat) (t : Item) : List Nat := (Dsc.units t.d).map (node i)

/-- What is known while the items of a cell are walked: the nodes that have completed before each node starts, the last node
of each unit, the posts of each channel and the waits matched so far. -/
structure Walk where
  pred : Sparse (List Nat) := []
  last : Sparse (Option Nat) := []
  posts : Sparse (List Nat) := []
  waits : Sparse Nat := []
  deriving DecidableEq, Repr

/-- One item (R90, R105, R106, R117): a wait follows the matched post's completion, a unit starts in order, and a barrier
follows everything issued up to its segment. -/
def walk (its : List Item) (bars : List Nat) (k : Walk) (e : Item × Nat) : Walk :=
  let (t, i) := e
  let bar := (bars.filter (· < t.seg)).foldl max 0
  let past := if (bars.filter (· < t.seg)).isEmpty then [] else
    its.zipIdx.flatMap (fun (q, j) => if q.seg ≤ bar then nodesOf j q else [])
  let byWait := match t.wait with
    | none => []
    | some ch =>
      match (Sp.get [] k.posts ch)[Sp.get 0 k.waits ch]? with
      | none => []
      | some j => let ns := nodesOf j (its.getD j {}); ns ++ ns.flatMap (fun n => Sp.get [] k.pred n)
  let pred := (nodesOf i t).foldl (fun (m : Sparse (List Nat)) n =>
    let byUnit := match Sp.get none k.last (n % 16) with
      | some l => Sp.get [] k.pred l
      | none => []
    Sp.set [] m n ((past ++ byWait ++ byUnit).eraseDups)) k.pred
  { pred := pred
    last := (nodesOf i t).foldl (fun m n => Sp.set none m (n % 16) (some n)) k.last
    posts := match t.post with | some ch => Sp.set [] k.posts ch (Sp.get [] k.posts ch ++ [i]) | none => k.posts
    waits := match t.wait with | some ch => Sp.set 0 k.waits ch (Sp.get 0 k.waits ch + 1) | none => k.waits }

/-- What orders the items of one cell among each other. -/
def walkAll (its : List Item) (bars : List Nat) : Walk := its.zipIdx.foldl (walk its bars) {}

/-- An access to a cell's memories, with the cell that issued it, its segment and offset, and its nodes there: MOVE data that
arrives keeps the nodes of its MOVE in the source cell (R65, R106). -/
structure Placed where
  a : Access := {}
  cell : Nat := 0
  seg : Nat := 0
  off : Nat := 0
  nodes : List Nat := []
  deriving DecidableEq, Repr

/-- The accesses that an item of a cell makes, its own or those of its arriving data. -/
def placed (cell i : Nat) (t : Item) (inbound : Bool) : List Placed :=
  ((accesses t.d).filter (fun a => (a.mode == .inbound) == inbound)).map (fun a =>
    { a := a, cell := cell, seg := t.seg, off := t.off
      nodes := if Dsc.opc t.d = 6 then nodesOf i t else [node i a.unit] })

/-- Two accesses touch one byte and one of them writes it (R56). -/
def clash (x y : Access) : Bool :=
  x.space == y.space && decide (x.lo < y.hi) && decide (y.lo < x.hi) && !(x.mode == .read && y.mode == .read)

/-- Two accesses are ordered (R65, R106): one issuing unit of one cell, a chain of posts and waits there, or a barrier between them.
A GATHER stands on every lane that it names; two that share a lane are on one unit (log 141). -/
def ordered (walks : List Walk) (bars : List Nat) (x y : Placed) : Bool :=
  bars.any (fun b => (decide (x.seg ≤ b) && decide (b < y.seg)) || (decide (y.seg ≤ b) && decide (b < x.seg)))
    || (x.cell == y.cell &&
      (x.nodes.any (fun n => y.nodes.any (fun m => n % 16 == m % 16))
        || x.nodes.all (fun n => y.nodes.all (fun m => (Sp.get [] (walks.getD x.cell {}).pred m).contains n))
        || y.nodes.all (fun n => x.nodes.all (fun m => (Sp.get [] (walks.getD x.cell {}).pred m).contains n))))

/-- Pairs of accesses that clash and that nothing orders: the offset of the later descriptor. -/
def cellHazard (walks : List Walk) (bars : List Nat) (all : List Placed) : List Nat :=
  all.zipIdx.flatMap (fun (x, i) => (all.drop (i + 1)).filterMap (fun y =>
    if clash x.a y.a && !ordered walks bars x y then some (max x.off y.off) else none))

def hazard (h w : Nat) (ds : List (Nat × Nat × Desc)) : Option Nat :=
  let bars := ds.filterMap (fun (g, _, d) => if Dsc.opc d = 9 then some g else none)
  let cells := (List.range (64 * h * w)).map (fun n => (n / (8 * w), n % (8 * w)))
  let its := cells.map (fun e => items ds e.1 e.2)
  let walks := its.map (fun l => walkAll l bars)
  -- data that arrives: the destination cell and the access
  let inbound := (cells.zip its).zipIdx.flatMap (fun ((e, l), n) => l.zipIdx.flatMap (fun (t, i) =>
    if Dsc.opc t.d = 7 then (dests t.d e.1 e.2).flatMap (fun q => (placed n i t true).map (fun a => (q, a))) else []))
  least ((cells.zip its).zipIdx.flatMap (fun ((e, l), n) =>
    cellHazard walks bars (l.zipIdx.flatMap (fun (t, i) => placed n i t false)
      ++ (inbound.filter (fun q => q.1 == ((e.1 : Int), (e.2 : Int)))).map (·.2))))

/-- Pages that a plate names by a direct address: relative row and column of the cell, and 32 × Pan + slot (R162). -/
def directs (h w : Nat) (ds : List (Nat × Nat × Desc)) : List (Nat × Nat × Nat) :=
  let cells := (List.range (64 * h * w)).map (fun n => (n / (8 * w), n % (8 * w)))
  let named := ds.flatMap (fun (_, _, d) => ((accesses d).filter (fun a => decide (0 < a.space))).flatMap (fun a =>
    (selected h w d).flatMap (fun e => if a.mode == .inbound then (dests d e.1 e.2).map (fun t => (t.1.toNat, t.2.toNat, a.space - 1))
      else [(e.1, e.2, a.space - 1)])))
  cells.flatMap (fun e => ((named.filter (fun q => q.1 == e.1 && q.2.1 == e.2)).eraseDups))

-- SHAPE_INVALID (R235).

/-- The window parameters of a MATMUL with AMODE 1 are refused. -/
def windowBad (d : Desc) : Bool :=
  let u := Engine.pixelUnits (Dsc.fmta d)
  let kk := Engine.kh d * Engine.kw d * 32
  let engines := (List.range 4).filter (fun e => (Dsc.emask d).testBit e)
  let fits (e : Nat) : Bool :=
    let a := Dsc.aaddr d + e * Dsc.astep d
    let units := Engine.cp d / 32 * Engine.ih d * Engine.iw d * u
    if Dsc.asrc d then a % 4096 + units ≤ 4096 else a + units ≤ 8192
  let eh := Engine.extent (Engine.pmode d) (Engine.ih d) (Engine.sh d) (Engine.dh d) (Engine.kfh d) (Engine.pt d) (Engine.pb d)
  let ew := Engine.extent (Engine.pmode d) (Engine.iw d) (Engine.sw d) (Engine.dw d) (Engine.kfw d) (Engine.pl d) (Engine.pr d)
  decide (fld d 176 6 ≥ 56) || decide (fld d 182 6 ≥ 56)
    || decide (7 * Engine.py d ≥ Engine.kfh d) || decide (7 * Engine.px d ≥ Engine.kfw d)
    || kk == 0 || Dsc.k d % kk != 0 || Dsc.k d == 0
    || !([1, 2, 3, 4, 6].contains (Dsc.fmta d))
    || !engines.all fits
    || decide (eh < 1) || decide (ew < 1)
    || decide (Engine.oh d * Engine.ow d > 4096)
    || decide (((Engine.opix d + Dsc.mm d - 1 : Nat) : Int) ≥ Engine.oh d * Engine.ow d)
    || (Engine.pmode d == 2 && (decide (Engine.pt d ≥ Engine.ih d) || decide (Engine.pb d ≥ Engine.ih d)
      || decide (Engine.pl d ≥ Engine.iw d) || decide (Engine.pr d ≥ Engine.iw d)))

def shapeInvalid (ds : List (Nat × Nat × Desc)) : Option Nat :=
  least (ds.filterMap (fun (_, o, d) => if Dsc.opc d = 1 ∧ Dsc.amode d = 1 ∧ windowBad d then some (o + 20) else none))

-- The whole.

/-- Slots of a plate with the TYPE values their uses accept (R198). -/
def useMap (ds : List (Nat × Nat × Desc)) : List (Nat × Nat) :=
  (ds.flatMap (fun (_, _, d) => slots d)).foldl (fun l e =>
    if l.any (fun q => q.1 == e.1) then l.map (fun q => if q.1 == e.1 then (q.1, q.2 ||| e.2.1) else q)
    else l ++ [(e.1, e.2.1)]) []

/-- SIGNER is a plate key enrolled for the tenant (R77, R421). -/
def keyOk (s : State) (tenant : Nat) (key : Bytes) : Bool :=
  (List.range 4).any (fun i => Sp.get none s.watch.plateKeys (4 * tenant + i) == some key)

/-- Pages of the two bind sets of a cell (R197). -/
def bindPages (nbind : Nat) : Nat := 2 * ((32 * nbind + pageBytes - 1) / pageBytes)

/-- Pages that each cell's bind sets grow by when a plate is loaded (R197). -/
def bindGrowth (x : Part) (b : Bytes) : Nat := bindPages (max x.nbind (nbind b)) - bindPages x.nbind

/-- Enough free plate pages: for the bind sets in Pan 0 of each cell, and for the image (R104, R197). -/
def hasSpace (s : State) (p : Nat) (b : Bytes) : Bool :=
  let x := s.part p
  let grow := bindGrowth x b
  let rows := s.freeRows p
  x.cells.all (fun n => decide (grow ≤ (rows.filter (fun r => pagePanNo r == 4 * n)).length))
    && decide (grow * x.cells.length + (b.length + pageBytes - 1) / pageBytes ≤ rows.length)

/-- The first check that fails, in the order of R104: its code and offset. -/
def check (s : State) (p : Nat) (b : Bytes) : Option (Nat × Nat) :=
  let x := s.part p
  let (gs, stop) := segments b (streamEnd b) (b.length / 8 + 1) (segOff b)
  let ds := all gs
  let h := shapeH b
  let w := shapeW b
  let tag (c : Nat) (o : Option Nat) : Option (Nat × Nat) := o.map (fun o => (c, o))
  let sig : Option Nat :=
    if !keyOk s x.tenant (slice b 0xA0 32) then some 0xA0
    else if !Crypto.edVerify (slice b 0xA0 32) (message b) (slice b 0xC0 64) then some 0xC0 else none
  let shape := first [(h + x.br0 != x.br1 + 1, 8), (w + x.bc0 != x.bc1 + 1, 9)]
  let lic := first [(pinned b && !(x.reflex && s.licReflex), 10), (pinned b && decide (segBytes b > 65536), 0x20)]
  -- the image takes the pages and a handle: its length is the field reported (log 139)
  let space := if (List.range 256).all (fun i => (x.plate i).isSome) || !hasSpace s p b then some 0x18 else none
  (tag 1 (header b)).or <| (tag 2 sig).or <| (tag 3 shape).or <| (tag 4 lic).or <| (tag 5 (encoding b gs stop)).or <|
  (tag 6 (formatCode ds)).or <| (tag 7 (formatPair ds)).or <| (tag 8 (range b ds)).or <| (tag 9 (events h w gs)).or <|
  (tag 10 (hazard h w ds)).or <| (tag 11 (shapeInvalid ds)).or (tag 12 space)

/-- The directory record of a plate that passes (R76, R78). -/
def record (b : Bytes) (rows : List Nat) : Plate :=
  let (gs, _) := segments b (streamEnd b) (b.length / 8 + 1) (segOff b)
  { shapeH := shapeH b, shapeW := shapeW b, family := u32 b 12, pinned := pinned b, beats := u32 b 0x24
    meas := Crypto.sha512 (message b), pages := rows, plateId := u64 b 0x10, segOff := segOff b, segBytes := segBytes b
    rampOff := rampOff b, rampCount := rampCount b, preslots := preslots b, nbind := nbind b, uses := useMap (all gs)
    directs := directs (shapeH b) (shapeW b) (all gs) }

end PlateCheck

end Sys2Proof.Machine
end

