-- ==== Sys2Proof/Machine/Images.lean ====
section
/-!
DEFINITION. Image transfers and what they install: plates (R77, R78, R104, R108), grammar tables and allow-lists (R215, R216),
weights (R315), models (R191), sampling profiles (R208, R209) and tree shapes (R217), with the mailbox commands that load,
register and remove them (R314, R494).
-/
namespace Sys2Proof.Machine

-- Commands that wait for a boundary (R494).

/-- The partition stands between a commit and the next release, and no rebuild is under way; the reflex partition is stopped (R475,
R494). -/
def Part.between (x : Part) : Bool :=
  x.rebuildTo.isNone && x.recover != 2 && (x.st == .boundary || (x.reflex && x.st != .released))

/-- A command that R494 holds until the partition is at a boundary. -/
def State.boundaryCommand (s : State) (f opc : Nat) (run : State → Cmd → State) : State :=
  if f = 0 ∨ (s.part (f - 1)).between then s.command f opc run else s

-- Open images (R314).

def Fn.image (x : Fn) (h : Nat) : Option OpenImg := Sp.get none x.images h

/-- Longest image of a kind, and the step of its length (R76, R216, R315). -/
def imgLimit (kind : Nat) : Nat := if kind = 1 then 16777216 else if kind = 2 then 0x80 + 17301504 else 2 ^ 32
def imgStep (kind : Nat) : Nat := if kind = 3 then 131080 else 8

/-- IMG_BEGIN (R314). -/
def execImgBegin (f : Nat) (s : State) : Out :=
  .next (s.command f 0x0401 (fun s c =>
    let kind := u8 c.payload 8
    let len := u32 c.payload 0x0C
    let x := s.fn f
    let open_ := (x.images.filter (fun e => e.2.isSome)).length
    let no := [(!(1 ≤ kind && kind ≤ 3) || len % imgStep kind != 0 || decide (imgLimit kind < len), 0x0102),
      (decide (4 ≤ open_), 0x0105)].find? (·.1)
    match no with
    | some (_, r) => s.respond f c.seq 0x0401 r []
    | none =>
      (s.setFn f { x with
        images := Sp.set none x.images x.nextImg (some { kind := kind, length := len }), nextImg := x.nextImg + 1 }).respond
        f c.seq 0x0401 0 (le 4 x.nextImg)))

/-- A byte that is already written would change (R314). -/
def mismatch (data : Sparse (Option Byte)) (off : Nat) (b : Bytes) : Bool :=
  b.zipIdx.any (fun e => match Sp.get none data (off + e.2) with | some v => v != e.1 | none => false)

/-- IMG_BLOCK (R314). -/
def execImgBlock (f : Nat) (s : State) : Out :=
  .next (s.command f 0x0402 (fun s c =>
    let h := u32 c.payload 8
    let off := u32 c.payload 0x0C
    let b := c.payload.drop 16
    let x := s.fn f
    match x.image h with
    | none => s.respond f c.seq 0x0402 0x0106 []
    | some i =>
      s.answer f c [(off % 8 != 0 || b.isEmpty || decide (65512 < b.length) || decide (i.length < off + b.length), 0x0102),
          (mismatch i.data off b, 0x0001)]
        (fun s => s.setFn f { x with
          images := Sp.set none x.images h (some { i with data := Sp.write none i.data off (b.map some) }) })))

/-- IMG_ABORT (R314). -/
def execImgAbort (f : Nat) (s : State) : Out :=
  .next (s.command f 0x0404 (fun s c =>
    let h := u32 c.payload 8
    let x := s.fn f
    s.answer f c [((x.image h).isNone, 0x0106)]
      (fun s => s.setFn f { x with images := Sp.set none x.images h none })))

/-- The image's bytes, and the first byte never written. -/
def OpenImg.bytes (i : OpenImg) : Bytes := (List.range i.length).map (fun k => (Sp.get none i.data k).getD 0)
def OpenImg.gap (i : OpenImg) : Option Nat := (List.range i.length).find? (fun k => (Sp.get none i.data k).isNone)

-- Installing images.

/-- Cuts bytes into pages. -/
def pagesOf (b : Bytes) : List Bytes :=
  (List.range ((b.length + pageBytes - 1) / pageBytes)).map (fun i => slice b (pageBytes * i) pageBytes)

/-- Pages allocated, written and sealed by a load path (R78, R154, R315); the image stays in the tenant's SHARED ranges, on pages of the
firmware's choice (R274, log 17). -/
def State.install (s : State) (p kind : Nat) (ps : List (Nat × Nat × Bytes)) : State :=
  let (cold, s) := s.pickCold (s.part p).tenant true ps.length
  let s := s.onPart p (fun x => { x with imgCold := x.imgCold ++ (ps.map (·.1)).zip (cold.getD []) })
  ps.foldl (fun s e =>
    let entry := Pte.make e.2.1 kind Pte.sealed_ p 0 0 (Pte.gen (s.pte e.1)) 0
    ((s.panWrite (e.1 * pageBytes) e.2.2).setPte e.1 entry).onPart p (fun x => { x with
      imgPages := Sp.set none x.imgPages e.1 (some (entry, e.2.2)) })) s

/-- `n` free rows of a partition, of the firmware's choice (log 17). -/
def State.pickRows (s : State) (p n : Nat) : List Nat × State :=
  let (i, s) := s.draw
  let l := s.freeRows p
  ((l.rotateLeft (i % max 1 l.length)).take n, s)

/-- The lowest free number. -/
def lowestFree {α : Type} (l : Sparse (Option α)) : Nat :=
  ((List.range (l.length + 1)).find? (fun i => (Sp.get none l i).isNone)).getD l.length

/-- The bind sets of every cell grow in Pan 0 to hold the largest NBIND (R197). -/
def State.growBinds (s : State) (p : Nat) (b : Bytes) : State :=
  let x := s.part p
  let grow := PlateCheck.bindGrowth x b
  let rows := x.cells.flatMap (fun n => ((s.freeRows p).filter (fun r => pagePanNo r == 4 * n)).take grow)
  let s := rows.foldl (fun s r =>
    let entry := Pte.make 0 Pte.plate Pte.live p 0 0 (Pte.gen (s.pte r)) 0
    (s.setPte r entry).onPart p (fun x => { x with imgPages := Sp.set none x.imgPages r (some (entry, [])) })) s
  s.onPart p (fun x => { x with nbind := max x.nbind (PlateCheck.nbind b), bindRows := x.bindRows ++ rows })

/-- A plate that has passed is loaded: pages, then its handle (R78, R104). -/
def State.loadPlate (s : State) (p : Nat) (b : Bytes) : Nat × Bytes × State :=
  let s := s.growBinds p b
  let ps := pagesOf b
  let (rows, s) := s.pickRows p ps.length
  let s := s.install p Pte.plate (rows.zip (ps.map (fun q => (0, q))))
  let h := lowestFree (s.part p).plates
  let pl := PlateCheck.record b rows
  (h, pl.meas, s.onPart p (fun x => { x with plates := Sp.set none x.plates h (some pl) }))

-- Tables (R215, R216).

namespace TableCheck

def tkind (b : Bytes) : Nat := u16 b 6
def vocab (b : Bytes) : Nat := u32 b 8
def nent (b : Bytes) : Nat := u32 b 0x0C
def nrange (b : Bytes) : Nat := u32 b 0x10
/-- The signed message (R215). -/
def message (b : Bytes) : Bytes := b.take 0x40 ++ zeros 64 ++ b.drop 0x80

/-- A state entry and a range entry of a grammar's body, by index (R215). -/
def stateWord (body : Bytes) (i : Nat) : Nat := u64 body (8 * i)
def rfirst (w : Nat) : Nat := bits w 0 21
def rcount (w : Nat) : Nat := bits w 21 19
def final (w : Nat) : Bool := w.testBit 40
def rangeWord (body : Bytes) (n i : Nat) : Nat := u64 body (8 * n + 8 * i)
def rangeFirst (w : Nat) : Nat := bits w 0 18
def rangeLast (w : Nat) : Nat := bits w 18 18
def rangeNext (w : Nat) : Nat := bits w 36 16
def tokenId (body : Bytes) (i : Nat) : Nat := u32 body (4 * i)

/-- TABLE_HEADER: the offset of the field that fails. -/
def header (b : Bytes) : Option Nat :=
  let g := tkind b == 1
  PlateCheck.first [(decide (b.length < 0x80), 0), (u32 b 0 != 0x45544754, 0), (u16 b 4 != 1, 4), (!(g || tkind b == 2), 6),
    (!(1 ≤ vocab b && vocab b ≤ 262144), 8),
    (!(1 ≤ nent b && nent b ≤ (if g then 65536 else 4096)), 0x0C),
    (if g then !(1 ≤ nrange b && nrange b ≤ 2097152) else nrange b != 0, 0x10),
    (!allZero b 0x14 12, 0x14),
    (b.length != 0x80 + (if g then 8 * (nent b + nrange b) else 4 * nent b), 0x0C)]

/-- TABLE_SIGNATURE. -/
def signature (s : State) (tenant : Nat) (b : Bytes) : Option Nat :=
  if !PlateCheck.keyOk s tenant (slice b 0x20 32) then some 0x20
  else if !Crypto.edVerify (slice b 0x20 32) (message b) (slice b 0x40 64) then some 0x40 else none

/-- TABLE_ENCODING: the first entry that breaks it. -/
def encoding (b : Bytes) : Option Nat :=
  let body := b.drop 0x80
  let n := nent b
  if tkind b = 1 then
    (((List.range n).find? (fun i =>
        let w := stateWord body i
        bits w 41 23 != 0 || decide (nrange b < rfirst w + rcount w))).map (fun i => 0x80 + 8 * i)).or
    (((List.range (nrange b)).find? (fun i =>
        let w := rangeWord body n i
        bits w 52 12 != 0 || decide (vocab b ≤ rangeLast w) || decide (n ≤ rangeNext w))).map (fun i => 0x80 + 8 * n + 8 * i))
  else ((List.range n).find? (fun i => decide (vocab b ≤ tokenId body i))).map (fun i => 0x80 + 4 * i)

/-- Ranges of a state, by index. -/
def rangesOf (body : Bytes) (i : Nat) : List Nat :=
  let w := stateWord body i
  (List.range (rcount w)).map (fun k => rfirst w + k)

/-- TABLE_ORDER. -/
def order (b : Bytes) : Option Nat :=
  let body := b.drop 0x80
  let n := nent b
  if tkind b = 1 then
    (List.range n).findSome? (fun i =>
      let rs := rangesOf body i
      (rs.find? (fun r =>
        let w := rangeWord body n r
        decide (rangeLast w < rangeFirst w)
          || (rs.getLast? != some r && decide (rangeFirst (rangeWord body n (r + 1)) ≤ rangeLast w)))).map
        (fun r => 0x80 + 8 * n + 8 * r))
  else ((List.range (n - 1)).find? (fun i => decide (tokenId body (i + 1) ≤ tokenId body i))).map (fun i => 0x80 + 4 * (i + 1))

/-- TABLE_FINAL. -/
def finals (b : Bytes) : Option Nat :=
  let body := b.drop 0x80
  if tkind b = 1 then
    ((List.range (nent b)).find? (fun i =>
      let w := stateWord body i
      if final w then rcount w != 0 else rcount w == 0)).map (fun i => 0x80 + 8 * i)
  else none

/-- The first check that fails: code and offset (R216). -/
def check (s : State) (p : Nat) (b : Bytes) : Option (Nat × Nat) :=
  let tag (c : Nat) (o : Option Nat) : Option (Nat × Nat) := o.map (fun o => (c, o))
  let space := if (s.freeRows p).length < (b.length + pageBytes - 1) / pageBytes then some 0x0C else none
  (tag 0x11 (header b)).or <| (tag 0x12 (signature s (s.part p).tenant b)).or <| (tag 0x13 (encoding b)).or <|
  (tag 0x14 (order b)).or <| (tag 0x15 (finals b)).or (tag 0x16 space)

end TableCheck

/-- A table that has passed is loaded into sealed WEIGHT pages (R215, R216). -/
def State.loadTable (s : State) (p : Nat) (b : Bytes) : Nat × Bytes × State :=
  let ps := pagesOf b
  let (rows, s) := s.pickRows p ps.length
  let s := s.install p Pte.weight (rows.zip (ps.map (fun q => (0, q))))
  let h := lowestFree (s.part p).tables
  let meas := Crypto.sha512 (TableCheck.message b)
  let t : TableImg := { tkind := TableCheck.tkind b, vocab := TableCheck.vocab b, nent := TableCheck.nent b, meas := meas
                        rows := rows, body := b.drop 0x80 }
  (h, meas, s.onPart p (fun x => { x with tables := Sp.set none x.tables h (some t) }))

-- Weights (R315).

/-- Page records of a weights image: row, FMT and page. -/
def weightRecords (b : Bytes) : List (Nat × Nat × Bytes) :=
  (List.range (b.length / 131080)).map (fun i =>
    let o := 131080 * i
    (u32 b o, u8 b (o + 4), slice b (o + 8) pageBytes))

/-- The first record that fails: code and offset (R315). FMT is a byte of which the spec defines the codes up to 0xF: a byte above is no
format code, and is refused as 0xF is (R19, log 137). -/
def weightCheck (s : State) (p : Nat) (b : Bytes) : Option (Nat × Nat) :=
  let rs := weightRecords b
  rs.zipIdx.findSome? (fun e =>
    let o := 131080 * e.2
    let row := e.1.1
    if !(decide (row < 131072) && (s.part p).hasCell (pageCell row) && Pte.state (s.pte row) == Pte.free)
        || (rs.take e.2).any (fun q => q.1 == row) then some (0x18, o)
    else if 15 ≤ e.1.2.1 then some (0x19, o + 4)
    else if !allZero b (o + 5) 3 then some (0x19, o + 5) else none)

/-- A weights image that has passed is loaded (R315); its measurement covers the whole image. -/
def State.loadWeights (s : State) (p : Nat) (b : Bytes) : Nat × Bytes × State :=
  let rs := weightRecords b
  let s := s.install p Pte.weight rs
  let h := lowestFree (s.part p).wimgs
  let meas := Crypto.sha512 b
  (h, meas, s.onPart p (fun x => { x with
    wimgs := Sp.set none x.wimgs h (some { meas := meas, rows := rs.map (·.1) }) }))

/-- Checks an image by its kind. -/
def State.checkImage (s : State) (p kind : Nat) (b : Bytes) : Option (Nat × Nat) :=
  if kind = 1 then PlateCheck.check s p b else if kind = 2 then TableCheck.check s p b else weightCheck s p b

/-- Installs an image by its kind. -/
def State.loadImage (s : State) (p kind : Nat) (b : Bytes) : Nat × Bytes × State :=
  if kind = 1 then s.loadPlate p b else if kind = 2 then s.loadTable p b else s.loadWeights p b

/-- IMG_END: the image is checked and installed, and its handle ends (R104, R216, R314, R315). -/
def State.endImage (s : State) (f : Nat) (c : Cmd) : State :=
  let p := f - 1
  let h := u32 c.payload 8
  match (s.fn f).image h with
  | none => s.respond f c.seq 0x0403 0x0106 []
  | some i =>
    let s := s.onFn f (fun x => { x with images := Sp.set none x.images h none })
    let b := i.bytes
    let bad := match i.gap with | some o => some (0x17, o) | none => s.checkImage p i.kind b
    match bad with
    | some (r, o) => s.respond f c.seq 0x0403 r (le 4 0 ++ le 4 o ++ zeros 64)
    | none =>
      let (handle, meas, s) := s.loadImage p i.kind b
      s.respond f c.seq 0x0403 0 (le 4 handle ++ le 4 0 ++ meas)

/-- The IMG_END that comes up next ends a plate, which needs no boundary (R158, R494). -/
def State.endsPlate (s : State) (f : Nat) : Bool :=
  match (s.fn f).headCmd with
  | some c => (match (s.fn f).image (u32 c.payload 8) with | some i => i.kind == 1 | none => true)
  | none => false

/-- IMG_END (R314, R494). -/
def execImgEnd (f : Nat) (s : State) : Out :=
  .next (if s.endsPlate f then s.command f 0x0403 (fun s c => s.endImage f c)
    else s.boundaryCommand f 0x0403 (fun s c => s.endImage f c))

-- Unloads (R108, R314).

/-- PLATE_UNLOAD (R108). -/
def execPlateUnload (f : Nat) (s : State) : Out :=
  .next (s.command f 0x0405 (fun s c =>
    let p := f - 1
    let h := u32 c.payload 8
    let x := s.part p
    if (x.plate h).isNone then s.respond f c.seq 0x0405 0x0106 []
    else if x.plateBusy h then (s.onPart p (fun x => { x with unloads := x.unloads ++ [(h, c.seq)] })).hold f c
    else (s.unloadPlate p h).respond f c.seq 0x0405 0 []))

/-- A profile names a table (R208, R314). -/
def profileNames (b : Bytes) (h : Nat) : Bool :=
  ((u8 b 10).testBit 0 && u32 b 0x0C == h) || ((u8 b 10).testBit 1 && u32 b 0x14 == h)

/-- Models of a partition. -/
def Part.modelList (x : Part) : List (Nat × Model) := x.models.filterMap (fun e => e.2.map (fun m => (e.1, m)))

/-- TABLE_UNLOAD (R314, R494). -/
def execTableUnload (f : Nat) (s : State) : Out :=
  .next (s.boundaryCommand f 0x0406 (fun s c =>
    let p := f - 1
    let h := u32 c.payload 8
    let x := s.part p
    let used := x.modelList.any (fun m => m.2.profiles.any (fun e =>
      match e.2 with | some b => profileNames b h | none => false))
    match Sp.get none x.tables h with
    | none => s.respond f c.seq 0x0406 0x0106 []
    | some t =>
      s.answer f c [(used, 0x0108)] (fun s =>
        ((s.freePages t.rows).dropImages p t.rows).onPart p (fun x => { x with tables := Sp.set none x.tables h none }))))

/-- WEIGHTS_UNLOAD (R314, R494). -/
def execWeightsUnload (f : Nat) (s : State) : Out :=
  .next (s.boundaryCommand f 0x0407 (fun s c =>
    let p := f - 1
    let h := u32 c.payload 8
    let x := s.part p
    match Sp.get none x.wimgs h with
    | none => s.respond f c.seq 0x0407 0x0106 []
    | some w =>
      s.answer f c [(x.modelList.any (fun m => m.2.weights.contains h), 0x0108)] (fun s =>
        ((s.freePages w.rows).dropImages p w.rows).onPart p (fun x => { x with wimgs := Sp.set none x.wimgs h none }))))

-- Models (R191, R314).

namespace ModelBlock

def nwh (b : Bytes) : Nat := u8 b 9
def ndb (b : Bytes) : Nat := u8 b 0x24
def npb (b : Bytes) : Nat := u8 b 0x25
def weights (b : Bytes) : List Nat := (List.range (nwh b)).map (fun i => u32 b (0x28 + 4 * i))
def decB (b : Bytes) : List Nat := (List.range (ndb b)).map (fun i => u16 b (0x68 + 2 * i))
def preB (b : Bytes) : List Nat := (List.range (npb b)).map (fun i => u32 b (0x88 + 4 * i))
/-- Offset of each list entry. -/
def entries (b : Bytes) : List Nat := (List.range (ndb b * (npb b + 1))).map (fun i => 0xC8 + 16 * i)
def handles (b : Bytes) (o : Nat) : List Nat := (List.range (u8 b o)).map (fun i => u8 b (o + 8 + i))

/-- Reserved bytes and ranges of the block. -/
def fieldsOk (b : Bytes) : Bool :=
  decide (u8 b 8 ≤ 3) && (1 ≤ nwh b && nwh b ≤ 16) && Lane.kvFmt (u8 b 10) && (1 ≤ u8 b 11 && u8 b 11 ≤ 4)
    && (1 ≤ u32 b 0x14 && u32 b 0x14 ≤ 262144) && (1 ≤ ndb b && ndb b ≤ 16) && decide (npb b ≤ 16)
    && allZero b (0x28 + 4 * nwh b) (64 - 4 * nwh b)
    && (decB b).all (fun n => n != 0) && (preB b).all (fun n => n != 0)
    && (entries b).all (fun o => (1 ≤ u8 b o && u8 b o ≤ 8) && allZero b (o + 1) 7 && allZero b (o + 8 + u8 b o) (8 - u8 b o))

/-- The registration. -/
def model (b : Bytes) : Model :=
  { weights := weights b, kvfmt := u8 b 10, dcode := u8 b 11, family := u32 b 0x0C, layers := u16 b 0x10, kvheads := u16 b 0x12
    vocab := u32 b 0x14, maxctx := u32 b 0x18, kvbud := u32 b 0x1C, pbud := u32 b 0x20, decB := decB b, preB := preB b
    lists := (entries b).map (handles b) }

end ModelBlock

/-- The refusal of a model block (R314). -/
def State.modelRefusal (s : State) (p : Nat) (b : Bytes) : Option Nat :=
  let x := s.part p
  let m := ModelBlock.model b
  let hs := m.lists.flatten
  let spent := (x.modelList.map (fun e => e.2.kvbud)).sum
  ([(!ModelBlock.fieldsOk b, 0x0102), ((x.model (u8 b 8)).isSome, 0x0104),
    (m.weights.any (fun h => (Sp.get none x.wimgs h).isNone) || hs.any (fun h => (x.plate h).isNone), 0x0106),
    (!ascending m.decB || !ascending m.preB || hs.any (fun h => match x.plate h with
      | some pl => pl.family != m.family
      | none => false), 0x0102),
    (decide (128 * x.cells.length < spent + m.kvbud), 0x0105)].find? (·.1)).map (·.2)

/-- References of a model on its WEIGHT pages (R151, R191). -/
def State.weightRefs (s : State) (p : Nat) (hs : List Nat) (up : Bool) : State :=
  hs.foldl (fun s h => match Sp.get none (s.part p).wimgs h with
    | some w => w.rows.foldl (fun s r =>
        s.setPte r (putFld (s.pte r) 24 12 (if up then Pte.refcnt (s.pte r) + 1 else Pte.refcnt (s.pte r) - 1))) s
    | none => s) s

/-- MODEL_REGISTER (R191, R314, R494). -/
def execModelRegister (f : Nat) (s : State) : Out :=
  .next (s.boundaryCommand f 0x0501 (fun s c =>
    let p := f - 1
    let b := c.payload
    match s.modelRefusal p b with
    | some r => s.respond f c.seq 0x0501 r []
    | none =>
      let m := ModelBlock.model b
      ((s.weightRefs p m.weights true).onPart p (fun x => { x with
        models := Sp.set none x.models (u8 b 8) (some m) })).respond f c.seq 0x0501 0 []))

/-- MODEL_REMOVE (R314, R494). -/
def execModelRemove (f : Nat) (s : State) : Out :=
  .next (s.boundaryCommand f 0x0502 (fun s c =>
    let p := f - 1
    let i := u8 c.payload 8
    let x := s.part p
    s.answer f c [(decide (i > 3), 0x0102), ((x.model i).isNone, 0x0106), (x.reqs.any (fun r => r.model == i), 0x0108)]
      (fun s => (s.weightRefs p (x.modelAt i).weights false).onPart p (fun x => { x with models := Sp.set none x.models i none }))))

-- Profiles and tree shapes (R208, R209, R217).

namespace ProfileCheck

/-- PROFILE_FIELD. -/
def fieldBad (b : Bytes) : Bool :=
  let temp := u32 b 0
  let topp := u32 b 4
  let nstop := u8 b 11
  (temp.testBit 31 && temp != 0x80000000) || bits temp 23 8 == 255
    || !(1 ≤ topp && topp ≤ 0x3F800000) || decide (u16 b 8 > 256) || decide (u8 b 10 > 3) || decide (nstop > 8)
    || !allZero b 0x1A 6 || !allZero b (0x20 + 4 * min nstop 8) (32 - 4 * min nstop 8)
    || (u8 b 0x19 != 0 && u8 b 0x18 == 0xFF)

def gram (b : Bytes) : Bool := (u8 b 10).testBit 0
def allow (b : Bytes) : Bool := (u8 b 10).testBit 1

/-- The loaded table of a kind that a handle names. -/
def table (x : Part) (kind h : Nat) : Option TableImg :=
  (Sp.get none x.tables h).bind (fun t => if t.tkind = kind then some t else none)

/-- States that the automaton reaches from those given, at most `fuel` rounds. -/
def reach (t : TableImg) : Nat → List Nat → List Nat
  | 0, l => l
  | k + 1, l =>
    let next := l.flatMap (fun i => (TableCheck.rangesOf t.body i).map (fun r =>
      TableCheck.rangeNext (TableCheck.rangeWord t.body t.nent r)))
    let new := (next.filter (fun i => !l.contains i)).eraseDups
    if new.isEmpty then l else reach t k (l ++ new)

/-- A state's ranges hold a token of the allow-list. -/
def meets (g : TableImg) (ids : List Nat) (i : Nat) : Bool :=
  (TableCheck.rangesOf g.body i).any (fun r =>
    let w := TableCheck.rangeWord g.body g.nent r
    ids.any (fun t => decide (TableCheck.rangeFirst w ≤ t) && decide (t ≤ TableCheck.rangeLast w)))

/-- MASK_EMPTY: a reachable state that is not FINAL allows no token (log 40). -/
def maskEmpty (g a : Option TableImg) (start : Nat) : Bool :=
  match g, a with
  | some g, some a =>
    let ids := (List.range a.nent).map (TableCheck.tokenId a.body)
    (reach g g.nent [start]).any (fun i => !TableCheck.final (TableCheck.stateWord g.body i) && !meets g ids i)
  | _, _ => false

/-- The code of the first check that fails (R209). -/
def check (x : Part) (m : Model) (b : Bytes) : Option Nat :=
  let g := if gram b then table x 1 (u32 b 0x0C) else none
  let a := if allow b then table x 2 (u32 b 0x14) else none
  let start := u32 b 0x10
  let stops := (List.range (u8 b 11)).map (fun i => u32 b (0x20 + 4 * i))
  ([(fieldBad b, 1),
    ((gram b && g.isNone) || (allow b && a.isNone)
      || (u8 b 0x18 != 0xFF && (Sp.get none m.trees (u8 b 0x18)).isNone), 2),
    ((match g with | some t => t.vocab != m.vocab | none => false)
      || (match a with | some t => t.vocab != m.vocab | none => false) || stops.any (fun t => decide (m.vocab ≤ t)), 3),
    ((match g with
      | some t => decide (t.nent ≤ start) || TableCheck.final (TableCheck.stateWord t.body start)
      | none => false), 4),
    (maskEmpty g a start, 5)].find? (·.1)).map (·.2)

end ProfileCheck

/-- A model of a partition is replaced. -/
def State.onModel (s : State) (p i : Nat) (g : Model → Model) : State :=
  s.onPart p (fun x => match x.model i with
    | some m => { x with models := Sp.set none x.models i (some (g m)) }
    | none => x)

/-- PROFILE_SET (R208, R209). -/
def execProfileSet (f : Nat) (s : State) : Out :=
  .next (s.command f 0x0503 (fun s c =>
    let p := f - 1
    let i := u8 c.payload 8
    let b := slice c.payload 0x10 64
    let x := s.part p
    if i > 3 then s.respond f c.seq 0x0503 0x0102 []
    else match x.model i with
    | none => s.respond f c.seq 0x0503 0x0106 []
    | some m =>
      match ProfileCheck.check x m b with
      | some r => s.respond f c.seq 0x0503 r []
      | none =>
        (s.onModel p i (fun m => { m with profiles := Sp.set none m.profiles (u8 c.payload 9) (some b) })).respond
          f c.seq 0x0503 0 []))

/-- PROFILE_REMOVE (R314). -/
def execProfileRemove (f : Nat) (s : State) : Out :=
  .next (s.command f 0x0504 (fun s c =>
    let p := f - 1
    let i := u8 c.payload 8
    let k := u8 c.payload 9
    let x := s.part p
    s.answer f c [(decide (i > 3), 0x0102),
        ((match x.model i with | some m => (Sp.get none m.profiles k).isNone | none => true), 0x0106),
        (x.reqs.any (fun r => r.model == i && r.sprof == k), 0x0108)]
      (fun s => s.onModel p i (fun m => { m with profiles := Sp.set none m.profiles k none }))))

/-- TREE_SET (R217). -/
def execTreeSet (f : Nat) (s : State) : Out :=
  .next (s.command f 0x0505 (fun s c =>
    let p := f - 1
    let b := c.payload
    let i := u8 b 8
    let k := u8 b 9
    let n := u8 b 10
    let parents := (List.range (min n 64)).map (fun j => u8 b (0x10 + j))
    s.answer f c [(decide (i > 3) || decide (k > 15), 0x0102), (((s.part p).model i).isNone, 0x0106),
        (!(1 ≤ n && n ≤ 64) || parents.zipIdx.any (fun e => e.1 != 0xFF && decide (e.2 ≤ e.1)), 1),
        (!allZero b (0x10 + n) (64 - n), 0x0102)]
      (fun s => s.onModel p i (fun m => { m with trees := Sp.set none m.trees k (some parents) }))))

end Sys2Proof.Machine
end

