-- ==== Sys2Proof/Machine/Video.lean ====
section
/-!
DEFINITION. Video engines (R247 to R268): opening and closing a context, decoding with its flags, the frame shaper, ready
records, and encoding under rate control. What ITU-T H.264 and H.265 say of a bitstream is opaque (log 14, log 15).
-/
namespace Sys2Proof.Machine

-- Opening (R250 to R252, R323).

namespace VidCheck

open Vid

/-- Reserved bytes, and fields that the block's MODE does not use (R251): offset and length. -/
def zeroRanges (b : Bytes) : List (Nat × Nat) :=
  [(9, 3), (0x16, 2), (0x2E, 2), (0x4C, 4), (0x68, 24)]
    ++ (if mode b = 1 then [(0x50, 24)] else [(8, 1), (0x18, 15), (0x28, 6), (0x30, 24)])

/-- VID_FIELD. -/
def fields (b : Bytes) : Bool :=
  [1, 2].contains (mode b) && [1, 2].contains (codec b) && decide (pair b ≤ 3)
    && decide (u8 b 3 < (if mode b = 1 then 4 else 2)) && (zeroRanges b).all (fun r => allZero b r.1 r.2)
    && 1 ≤ chan b && decide (chan b ≤ 255) && 2 ≤ nbuf b && decide (nbuf b ≤ 16)
    && (if mode b = 1 then
        1 ≤ dpbn b && decide (dpbn b ≤ 16) && 1 ≤ ow b && decide (ow b ≤ 4096) && 1 ≤ oh b && decide (oh b ≤ 4096)
          && decide (scale b ≤ 1) && decide (colour b % 4 ≤ 1) && decide (colour b < 16) && [1, 2, 3, 6].contains (ofmt b)
          && tw b != 0 && th b != 0
      else
        decide (rcMode b ≤ 2) && decide (qpI b ≤ 51) && decide (qpP b ≤ 51) && decide (qpMin b ≤ 51) && decide (qpMax b ≤ 51)
          && sliceRows b != 0 && (cpbBits b != 0 || rcMode b == 0) && fnum b != 0 && fden b != 0)

/-- The picture sizes of R250. -/
def inTable (codec w h : Nat) : Bool :=
  [w, h].all (fun n => 16 ≤ n && decide (n ≤ 4096) && n % 2 == 0)
    && (if codec = 1 then decide (cdiv w 16 * cdiv h 16 ≤ 36864) else decide (w * h ≤ 8912896))

/-- The active parameter set lies inside R250 and the context's MAXW, MAXH, DPBN and BIT10 (R250, R259); the level and the tier bound
only rates. -/
def fits (b : Bytes) (q : SeqParams) : Bool :=
  (match q.profile with | .main => true | .high => codec b == 1 | .main10 => codec b == 2 | .other => false)
    && q.yuv420 && q.progressive && q.depthC == q.depthY
    && (q.depthY == 8 || (q.depthY == 10 && q.profile == .main10 && bit10 b))
    && inTable (codec b) q.width q.height && decide (q.width ≤ maxw b) && decide (q.height ≤ maxh b)
    && decide (q.dpb ≤ dpbn b)

/-- VID_SIZE: the largest picture, and the crop inside it (R250). -/
def size (b : Bytes) : Bool :=
  let (w, h) := (maxw b, maxh b)
  inTable (codec b) w h && (mode b == 1 || (w % 16 == 0 && h % 16 == 0))
    && decide (cropX b + cropW b ≤ w) && decide (cropY b + cropH b ≤ h)

/-- The widest clipped extent of a tile of `t` with halo `h` in an output of `o`. -/
def extent (o t h : Nat) : Nat :=
  ((List.range (cdiv o t)).map (fun i => min o ((i + 1) * t + h) - (i * t - h))).foldl max 0

/-- SHAPE_TILE: a clipped tile with its halo is a map of one page (R229). -/
def tile (b : Bytes) : Bool :=
  let w := extent (ow b) (tw b) (hx b)
  let h := extent (oh b) (th b) (hy b)
  let u := Arith.elemBits (ofmt b) / 8
  mode b == 2 || (decide (w ≤ 256) && decide (h ≤ 256) && decide (w * h * u ≤ 4096))

end VidCheck

namespace Rc

open Vid

/-- Units of a row, rows, slices and units of a picture (R265, R268). -/
def unit (b : Bytes) : Nat := if codec b = 1 then 16 else 64
def cols (b : Bytes) : Nat := cdiv (maxw b) (unit b)
def rows (b : Bytes) : Nat := cdiv (maxh b) (unit b)
def slices (b : Bytes) : Nat := cdiv (rows b) (sliceRows b)
def units (b : Bytes) : Nat := cols b * rows b

/-- The drain per picture and the least picture (R267). -/
def drain (b : Bytes) : Nat := bitrate b * fden b / fnum b
def least (b : Bytes) : Nat := 32 * units b + 1024 * slices b + 2112

/-- The conditions of R267. -/
def ok (b : Bytes) : Bool :=
  mode b == 1 || (rcMode b == 0 && cpbBits b == 0)
    || (decide (least b ≤ drain b) && decide (initFull b + least b ≤ cpbBits b))

end Rc

/-- Open video contexts, and SENSOR and REFLEX entries: the stream count (R323). -/
def State.streamCount (s : State) : Nat :=
  ((List.range 32).filter (fun i => (s.vctx (i / 8) (i % 8)).isSome)).length
    + ((List.range 32).filter (fun i => match s.stream i with | some e => e.kind == 2 || e.kind == 3 | none => false)).length

/-- Two page ranges overlap. -/
def overlap (a n b m : Nat) : Bool := decide (a < b + m) && decide (b < a + n)

/-- VID_PAGES (R252). -/
def State.vidPages (s : State) (t : Nat) (b : Bytes) : Bool :=
  let need := (if Vid.mode b = 1 then Vid.dpbn b + 2 else 2) * Vid.picturePages b
  let taken := (List.range 32).flatMap (fun i => match s.vctx (i / 8) (i % 8) with
    | some c => Vid.ranges c.params
    | none => [])
  decide (need ≤ Vid.picPages b)
    && (Vid.ranges b).all (fun r => s.ownsRange t r.1 r.2 && !taken.any (fun q => overlap r.1 r.2 q.1 q.2))

/-- The refusal of VCTX_OPEN, in the order of R252. -/
def State.vctxRefusal (s : State) (t : Nat) (b : Bytes) : Option Nat :=
  let v := s.vpair (Vid.pair b)
  ([(!VidCheck.fields b, 0x21),
    (v.owner != some t || v.scrub || (List.range 8).all (fun j => (s.vctx (Vid.pair b) j).isSome), 0x22),
    (Vid.codec b == 1 && Vid.bit10 b, 0x23), (!VidCheck.size b, 0x24), (!s.vidPages t b, 0x25), (!VidCheck.tile b, 0x26),
    (!Rc.ok b, 0x27), (decide (32 < s.streamCount + 1), 0x28)].find? (·.1)).map (·.2)

/-- VCTX_OPEN (R251, R252, R314). -/
def execVctxOpen (f : Nat) (s : State) : Out :=
  .next (s.command f 0x0601 (fun s c =>
    let p := f - 1
    let v := u8 c.payload 8
    let b := slice c.payload 0x10 128
    if v > 31 then s.respond f c.seq 0x0601 0x0102 []
    else if (s.findVctx p v).isSome then s.respond f c.seq 0x0601 0x0104 []
    else match s.vctxRefusal (s.part p).tenant b with
    | some r => s.respond f c.seq 0x0601 r []
    | none =>
      let k := Vid.pair b
      let j := ((List.range 8).find? (fun j => (s.vctx k j).isNone)).getD 0
      (s.setVctx k j (some { part := p, vctx := v, params := b, full := Vid.initFull b })).respond f c.seq 0x0601 0 (le 1 j)))

-- Decoding (R253 to R259).

/-- An item as the decoding process sees it; the end of an access unit carries its timestamp (R327). -/
def NalItem.code : NalItem → Nat × Bytes
  | .nal b => (0, b)
  | .loss => (1, [])
  | .auEnd t => (2, le 4 t)

/-- The shortest prefix of the waiting input that completes an access unit, and what the parse finds in it. -/
def VidCtx.nextUnit (c : VidCtx) : Option (List NalItem × AccessUnit) :=
  (List.range c.input.length).findSome? (fun n =>
    let take := c.input.take (n + 1)
    let u := Config.parse c.params ((c.seen ++ take).map NalItem.code)
    if u.present then some (take, u) else none)

/-- The context with an access unit taken from its input. -/
def VidCtx.take (c : VidCtx) (l : List NalItem) : VidCtx :=
  { c with
    input := c.input.drop l.length
    seen := c.seen ++ l
    auNum := c.auNum + 1 }

/-- Access units that wait whole, up to `n` (R247). -/
def VidCtx.waiting : Nat → VidCtx → Nat
  | 0, _ => 0
  | n + 1, c => match c.nextUnit with
    | none => 0
    | some (l, _) => 1 + (c.take l).waiting n

/-- The entropy engine of a pair runs ahead of its pixel engine by some of the pictures that wait, 4 at most, and holds their syntax in
the 2 MiB of its buffer; how far it has come is timing: a free value (R247, R269, log 86). -/
def State.runAhead (s : State) (k : Nat) : State :=
  let wait := min 4 (((List.range 8).map (fun j => match s.vctx k j with
    | some c => if c.isDecode then c.waiting 4 else 0
    | none => 0)).sum)
  let (n, bytes) := Config.runAhead s.now k
  let ahead := n % (wait + 1)
  s.onVpair k (fun v => { v with
    ahead := ahead
    synBytes := if ahead = 0 then 0 else bytes % (2 ^ 21 + 1) })

/-- What the parse of a picture leaves: the units parsed, the bins counted, whether the budget ended it, and whether a slice beyond the
1,024th or a unit beyond the picture's end was ignored (R254). -/
structure Parsed where
  units : List Nat := []
  bins : Nat := 0
  budget : Bool := false
  ignored : Bool := false
  deriving DecidableEq, Repr

namespace Dec

/-- The units of one slice: parsing ends at a damaged unit, whose slice is lost from there (R256), and for the picture when the count
reaches the budget (R254). -/
def slice (limit total : Nat) : Parsed → List SliceUnit → Parsed
  | p, [] => p
  | p, u :: rest =>
    if p.budget then p
    else
      let n := p.bins + u.bins
      let p := { p with bins := n, budget := decide (limit ≤ n) }
      if limit < n ∨ !u.good then p
      else if total ≤ u.place then slice limit total { p with ignored := true } rest
      else slice limit total { p with units := p.units ++ [u.place] } rest

/-- Coding units in a row and in the picture. -/
def cols (u : AccessUnit) : Nat := Vid.cdiv u.seq.width (max 1 u.side)
def total (u : AccessUnit) : Nat := cols u * Vid.cdiv u.seq.height (max 1 u.side)

/-- The parse of a picture in its budget of 12 B + 2 S bins (R254). -/
def parse (u : AccessUnit) : Parsed :=
  (u.slices.take 1024).foldl (slice (12 * u.bytes + 2 * (u.seq.width * u.seq.height)) (total u))
    { ignored := decide (1024 < u.slices.length) }

/-- Units that are concealed: those that no slice gave (R254, R256). -/
def concealed (u : AccessUnit) : List Nat := (List.range (total u)).filter (fun i => !(parse u).units.contains i)

/-- A picture of the buffer carries a flag of R258. -/
def flagged (q : Picture) : Bool := q.flags % 32 != 0

/-- The flags of a picture: DAMAGED, REF_SUBST, GREY, BUDGET, TAINTED in bits 0 to 4 (R254 to R258). -/
def flags (u : AccessUnit) (dpb : List Picture) (src : Option Picture) : Nat :=
  let p := parse u
  let lacks := !(concealed u).isEmpty
  let missing := u.refs.any (fun r => !dpb.any (fun q => q.au == r.1))
  let tainted := u.refs.any (fun r => r.2 && dpb.any (fun q => q.au == r.1 && flagged q))
  b2n (lacks || p.budget || p.ignored) + 2 * b2n missing + 4 * b2n ((lacks || missing) && src.isNone) + 8 * b2n p.budget
    + 16 * b2n tainted

/-- A plane of a picture, and a sample of it. -/
def plane (q : Planes) (i : Nat) : List Nat := if i = 0 then q.luma else if i = 1 then q.cb else q.cr
def width (w plane : Nat) : Nat := if plane = 0 then w else w / 2

/-- The co-located sample of the concealment source, or mid-grey where there is none (R257). -/
def grey (u : AccessUnit) (src : Option Picture) (i x y : Nat) : Nat :=
  match src with
  | none => 2 ^ (u.seq.depthY - 1)
  | some q =>
    if x < width q.width i ∧ y < width q.height i ∧ q.depth = u.seq.depthY then (plane q.planes i).getD (y * width q.width i + x) 0
    else Config.outsideSample x y i

/-- A plane of the size of a picture. -/
def fill (u : AccessUnit) (f : Nat → Nat → Nat → Nat) (i : Nat) : List Nat :=
  (List.range (width u.seq.height i)).flatMap (fun y => (List.range (width u.seq.width i)).map (fun x => f i x y))

def planes (u : AccessUnit) (f : Nat → Nat → Nat → Nat) : Planes := { luma := fill u f 0, cb := fill u f 1, cr := fill u f 2 }

/-- The reference pictures: an absent one is the concealment source or mid-grey (R258). -/
def refs (u : AccessUnit) (dpb : List Picture) (src : Option Picture) : List Planes :=
  u.refs.map (fun r => match dpb.find? (fun q => q.au == r.1) with
    | some q => q.planes
    | none => planes u (grey u src))

/-- The unit that a sample lies in. -/
def place (u : AccessUnit) (i x y : Nat) : Nat :=
  let side := if i = 0 then max 1 u.side else max 1 (u.side / 2)
  y / side * cols u + x / side

/-- The samples of a picture: what the standard decodes, and in concealed units the co-located samples (R253, R257). -/
def samples (c : VidCtx) (u : AccessUnit) : Planes :=
  let got := (parse u).units
  let rs := refs u c.dpb c.src
  planes u (fun i x y =>
    if got.contains (place u i x y) then Config.decoded c.params (c.seen.map NalItem.code) rs i x y else grey u c.src i x y)

/-- A rectangle of a plane. -/
def rect (pl : List Nat) (w x y cw ch : Nat) : List Nat :=
  (List.range ch).flatMap (fun j => (List.range cw).map (fun i => pl.getD ((y + j) * w + (x + i)) 0))

/-- A picture cropped to its conformance window (R253). -/
def crop (q : Picture) : Picture :=
  let r := q.window
  let c (pl : List Nat) := rect pl (q.width / 2) (r.x / 2) (r.y / 2) (r.w / 2) (r.h / 2)
  { q with
    width := r.w, height := r.h
    planes := { luma := rect q.planes.luma q.width r.x r.y r.w r.h, cb := c q.planes.cb, cr := c q.planes.cr } }

end Dec

/-- A picture of the buffer goes to the shaper with its flags, the first with GAP where pictures were lost, and takes the next picture
number (R253, R259, R263). -/
def VidCtx.output (c : VidCtx) (au : Nat) : VidCtx :=
  match c.dpb.find? (fun q => q.au == au) with
  | none => c
  | some q => { c with
      gap := false, nextPic := c.nextPic + 1
      out := c.out ++ [{ Dec.crop q with num := c.nextPic, flags := q.flags + 32 * b2n c.gap }] }

/-- The picture of an access unit that fits, as it enters the decoded picture buffer (R253 to R258). -/
def VidCtx.picture (c : VidCtx) (u : AccessUnit) (ts : Nat) : Picture :=
  let slots := Vid.picPages c.params / max 1 (Vid.picturePages c.params)
  { au := c.auNum - 1, ts := ts, flags := Dec.flags u c.dpb c.src, width := u.seq.width, height := u.seq.height
    depth := u.seq.depthY, window := u.seq.window, planes := Dec.samples c u
    slot := ((List.range slots).find? (fun i => !c.dpb.any (fun q => q.slot == i))).getD 0 }

/-- The context after a picture: it is the concealment source where it carries no flag of R257, and the decoded picture buffer, of at most
DPBN + 1 pictures and the new one, keeps what the standard keeps (R251, R253, R257). -/
def VidCtx.enter (c : VidCtx) (u : AccessUnit) (q : Picture) : VidCtx :=
  let c := { c with
    gap := c.gap || c.discarding || u.lost, discarding := false, discarded := 0, dpb := c.dpb ++ [q]
    src := if Dec.flagged q then c.src else some q }
  let c := u.outputs.foldl VidCtx.output c
  { c with dpb := lastN (Vid.dpbn c.params + 1) (c.dpb.filter (fun e => u.keep.contains e.au)) }

/-- A picture is written to its slot of the context's picture storage under the tenant key (R251, R255). -/
def State.storePicture (s : State) (c : VidCtx) (slot : Nat) (q : Planes) : State :=
  let n := Vid.picturePages c.params
  match (s.tenant (s.part c.part).tenant).key with
  | none => s
  | some key =>
    if Vid.picPages c.params < (slot + 1) * n then s
    else s.coldStore key (coldAddr (Vid.picBase c.params + slot * n)) (fit (n * pageBytes) (Config.stored c.params q))

/-- The discarding of a sequence ends: VIDEO_STREAM with the number of pictures (R259, R467). -/
def State.endDiscard (s : State) (k j : Nat) (c : VidCtx) : State :=
  if c.discarded != 0 then (s.vidFlag k 4).raise 24 1 7 0 c.part (locVideo k j) c.discarded else s

/-- Work is left for a context (R313). -/
def VidCtx.busy (c : VidCtx) : Bool :=
  (c.isDecode && c.nextUnit.isSome) || !c.out.isEmpty || c.shaping.isSome || !c.jobs.isEmpty || !c.slices.isEmpty

/-- A context that closes after its last picture is gone, with the RTP entries that name it; a sequence that it was discarding ends with
it (R259, R313, R325). -/
def State.closeVctx (s : State) (k j : Nat) : State :=
  match s.vctx k j with
  | none => s
  | some c =>
    match c.closeCmd with
    | none => s
    | some q =>
      if c.busy then s
      else
        let s := s.removeStreams (fun e => e.kind == 1 && e.part == c.part && e.vctx == c.vctx)
        ((s.endDiscard k j c).setVctx k j none).respond (partFn c.part) q 0x0602 0 []

/-- VCTX_CLOSE (R313, R325). -/
def execVctxClose (f : Nat) (s : State) : Out :=
  .next (s.command f 0x0602 (fun s c =>
    match s.findVctx (f - 1) (u8 c.payload 8) with
    | none => s.respond f c.seq 0x0602 0x0106 []
    | some (k, j, v) => ((s.setVctx k j (some { v with closeCmd := some c.seq })).hold f c).closeVctx k j))

/-- Contexts of a pair in the rotation of R249: ascending from the one after the last served. -/
def rotation (last : Nat) : List Nat := (List.range 8).map (fun i => (last + 1 + i) % 8)

/-- A context has a picture for the pixel engine of its pair. -/
def VidCtx.hasPicture (c : VidCtx) : Bool := if c.isDecode then c.nextUnit.isSome else !c.jobs.isEmpty

/-- The context that the pixel engine of a pair serves next, for decode and encode in one rotation; none while a picture that it has
started still has slices to code (R247, R249, R265). -/
def State.nextServed (s : State) (k : Nat) : Option Nat :=
  let is (f : VidCtx → Bool) (j : Nat) : Bool := match s.vctx k j with | some c => f c | none => false
  if (List.range 8).any (is (fun c => !c.slices.isEmpty)) then none
  else (rotation (s.vpair k).last).find? (is VidCtx.hasPicture)

/-- One access unit of a context is decoded, or discarded where its sequence does not fit (R253 to R259). -/
def State.decodeUnit (s : State) (k j : Nat) (c : VidCtx) (l : List NalItem) (u : AccessUnit) : State :=
  let c := c.take l
  let fits := VidCheck.fits c.params u.seq
  if !fits || (c.discarding && !u.irap) then
    let fresh := !c.discarding || (!fits && u.irap)
    let s := if fresh then s.endDiscard k j c else s
    s.setVctx k j (some { c with
      discarding := true
      discarded := if fresh then 1 else c.discarded + 1 })
  else
    let s := s.endDiscard k j c
    let ts := (l.findSome? (fun i => match i with | .auEnd t => some t | _ => none)).getD 0
    let q := c.picture u ts
    let s := if q.flags.testBit 0 || q.flags.testBit 1 then s.vidFlag k 0 else s
    let s := if q.flags.testBit 3 then s.vidFlag k 1 else s
    let s := s.onVpair k (fun v => { v with decPix := sat32 (v.decPix + u.seq.width * u.seq.height) })
    (s.storePicture c q.slot q.planes).setVctx k j (some (c.enter u q))

/-- PICTURE_DECODE: the pixel engine of the pair decodes the next picture, where its rotation comes to a decode context (R249, R253). -/
def execPictureDecode (k : Nat) (s : State) : Out :=
  match s.nextServed k with
  | none => .next s
  | some j =>
    match s.vctx k j with
    | none => .next s
    | some c =>
      match c.nextUnit with
      | none => .next s
      | some (l, u) =>
        if !c.isDecode then .next s
        else .next ((((s.onVpair k (fun v => { v with last := j })).decodeUnit k j c l u).runAhead k).closeVctx k j)

-- The frame shaper (R260 to R262).

namespace Shape

open Arith Vid

/-- The FP32 value nearest a quotient of naturals. -/
def ratio (n d : Nat) : Nat := (toFloat fp32 .rne false false n (max 1 d) 0).1

/-- FP32 of an integer. -/
def ofInt (i : Int) : Nat := (toFloat fp32 .rne false (i < 0) i.natAbs 1 0).1

/-- FP32 operations with RNE, flags dropped. -/
def fadd (a b : Nat) : Nat := (add .rne a b).1
def fsub (a b : Nat) : Nat := (sub .rne a b).1
def fmul (a b : Nat) : Nat := (mul .rne a b).1
def fdiv (a b : Nat) : Nat := (div .rne a b).1

/-- The greatest integer not above a finite FP32 value. -/
def floor (a : Nat) : Int :=
  match decode fp32 a with
  | .fin neg m e =>
    let i : Int := if neg then -(m : Int) else m
    if e ≥ 0 then i * (p2 e : Int) else i.fdiv (p2 (-e) : Int)
  | _ => 0

/-- One coordinate of R260. -/
def coord (x crop o : Nat) : Nat :=
  fsub (fmul (fadd (ratio x 1) (ratio 1 2)) (ratio crop o)) (ratio 1 2)

def clamp (i : Int) (lo n : Nat) : Nat := (max (lo : Int) (min i ((lo + n : Nat) - 1 : Int))).toNat

/-- Samples of a plane of a decoded picture; a crop outside a smaller picture is not stated (log 14). -/
def sample (pl : List Nat) (w h x y i : Nat) : Nat :=
  if x < w ∧ y < h then pl.getD (y * w + x) 0 else Config.outsideSample x y i

/-- Constants of a colour matrix, in 1/10,000: Kr and Kb. -/
def matrix (b : Bytes) : Nat × Nat := if colour b % 4 = 0 then (2990, 1140) else (2126, 722)

/-- The convert step of R260 at a picture's bit depth: the channels R, G, B, or Y′ alone. -/
def convert (b : Bytes) (depth y cb cr : Nat) : List Nat :=
  let k := if depth = 10 then 4 else 1
  let full := (colour b).testBit 2
  let yn := if full then fdiv (ratio y 1) (ratio (255 * k) 1) else fdiv (ofInt ((y : Int) - 16 * k)) (ratio (219 * k) 1)
  if lumaOnly b then [yn]
  else
    let cd := ratio ((if full then 255 else 224) * k) 1
    let cbn := fdiv (ofInt ((cb : Int) - 128 * k)) cd
    let crn := fdiv (ofInt ((cr : Int) - 128 * k)) cd
    let (kr, kb) := matrix b
    let kg := 10000 - kr - kb
    [fadd yn (fmul (ratio (2 * (10000 - kr)) 10000) crn),
     fsub (fsub yn (fmul (ratio (2 * kb * (10000 - kb)) (10000 * kg)) cbn)) (fmul (ratio (2 * kr * (10000 - kr)) (10000 * kg)) crn),
     fadd yn (fmul (ratio (2 * (10000 - kb)) 10000) cbn)]

/-- The colour of one tap of a picture. -/
def tap (b : Bytes) (q : Picture) (x y : Nat) : List Nat :=
  let c (pl : List Nat) := sample pl (q.width / 2) (q.height / 2) (x / 2) (y / 2)
  convert b q.depth (sample q.planes.luma q.width q.height x y 0) (c q.planes.cb 1) (c q.planes.cr 2)

/-- The taps of an output pixel with their weights. -/
def taps (b : Bytes) (x y : Nat) : List (Nat × Nat × Nat) :=
  let sx := coord x (cropW b) (ow b)
  let sy := coord y (cropH b) (oh b)
  let cx (i : Int) := clamp i (cropX b) (cropW b)
  let cy (i : Int) := clamp i (cropY b) (cropH b)
  let half := ratio 1 2
  if scale b = 0 then [(cx (floor (fadd sx half)), cy (floor (fadd sy half)), ratio 1 1)]
  else
    let x0 := floor sx
    let y0 := floor sy
    let fx := fsub sx (ofInt x0)
    let fy := fsub sy (ofInt y0)
    let gx := fsub (ratio 1 1) fx
    let gy := fsub (ratio 1 1) fy
    [(cx x0, cy y0, fmul gx gy), (cx (x0 + 1), cy y0, fmul fx gy), (cx x0, cy (y0 + 1), fmul gx fy),
     (cx (x0 + 1), cy (y0 + 1), fmul fx fy)]

/-- Taps summed left to right, each product rounded. -/
def blend : List (Nat × List Nat) → Nat → Nat
  | [], _ => 0
  | (w, v) :: t, c => t.foldl (fun a e => fadd a (fmul e.1 (e.2.getD c 0))) (fmul w (v.getD c 0))

/-- The channels of an output pixel in OFMT (R260). -/
def pixel (b : Bytes) (q : Picture) (x y : Nat) : List Nat :=
  let ts := (taps b x y).map (fun t => (t.2.2, tap b q t.1 t.2.1))
  let out := (List.range (if lumaOnly b then 1 else 3)).map (fun c =>
    (Arith.convert (ofmt b) .rne true (valueOf 0 (fmul (fsub (blend ts c) (mean b c)) (scaleF b c)))).1)
  if (colour b).testBit 3 && !lumaOnly b then out.reverse else out

/-- The row of 32 channels of a pixel (R25, R228). -/
def row (b : Bytes) (q : Picture) (x y : Nat) : Bytes :=
  let n := elemBits (ofmt b) / 8
  fit (32 * n) ((pixel b q x y).flatMap (le n))

/-- The map of one tile: its core widened by the halo and clipped to the output (R261). -/
def tileMap (b : Bytes) (q : Picture) (i j : Nat) : Bytes :=
  let xs := range2 (i * tw b - hx b) (min (ow b) ((i + 1) * tw b + hx b) - 1)
  let ys := range2 (j * th b - hy b) (min (oh b) ((j + 1) * th b + hy b) - 1)
  ys.flatMap (fun y => xs.flatMap (fun x => row b q x y))

end Shape

/-- The tiles of a picture, written to consecutive pages of a buffer set under the tenant key (R261, R274). -/
def State.writeTiles (s : State) (c : VidCtx) (set : Nat) (q : Picture) : State :=
  let b := c.params
  match (s.tenant (s.part c.part).tenant).key with
  | none => s
  | some key =>
    let n := Vid.cdiv (Vid.ow b) (Vid.tw b)
    (List.range (Vid.ntile b)).foldl (fun s t =>
      s.coldStore key (coldAddr (Vid.setBase b set + t)) (Shape.tileMap b q (t % n) (t / n))) s

/-- The lowest-numbered free set; a standby keeps one set free (R262, R264). -/
def State.freeSet (s : State) (c : VidCtx) : Option Nat :=
  match (List.range (Vid.nbuf c.params)).filter (fun i => !c.used.contains i) with
  | [] => none
  | [i] => if s.pair.st == .standby then none else some i
  | i :: _ => some i

/-- SHAPE_PICTURE: the next output picture takes a free set, or is dropped (R260 to R262). -/
def execShapePicture (k j : Nat) (s : State) : Out :=
  match s.vctx k j with
  | none => .next s
  | some c =>
    match c.out, c.shaping with
    | q :: t, none =>
      match s.freeSet c with
      | none =>
        let s := (s.vidFlag k 2).onVpair k (fun v => { v with ovr := sat32 (v.ovr + 1) })
        .next ((s.setVctx k j (some { c with out := t, overrun := true, shaped := c.shaped ++ [(q.num, none)] })).closeVctx k j)
      | some set =>
        let q := { q with flags := q.flags + 64 * b2n c.overrun }
        .next ((s.writeTiles c set q).setVctx k j (some { c with
          out := t, overrun := false, used := c.used ++ [set], shaping := some (set, q) }))
    | _, _ => .next s

/-- The 32-byte ready record (R263). -/
def readyRecord (c : VidCtx) (set : Nat) (q : Picture) (tick : Nat) : Bytes :=
  bytes [c.vctx, q.flags, set, 0] ++ le 4 q.num ++ le 8 tick ++ le 4 q.ts ++ le 2 (Vid.ntile c.params) ++ zeros 10

/-- Picture-latency deadlines of the RTP entries of a context are met by a ready record (R328). -/
def State.meetPicture (s : State) (c : VidCtx) (ts : Nat) : State :=
  (List.range 32).foldl (fun s i => match s.stream i with
    | some e =>
      if e.kind = 1 ∧ e.part = c.part ∧ e.vctx = c.vctx then
        s.setStream i (some { e with lat := e.lat.filter (fun d => d.1 != ts) })
      else s
    | none => s) s

/-- PICTURE_READY: the last tile is written; the ready record goes to the ready ring and to the host as a NOTICE, and the
context's interrupt is raised (R263, R300, R457). -/
def execPictureReady (k j : Nat) (s : State) : Out :=
  match s.vctx k j with
  | none => .next s
  | some c =>
    match c.shaping with
    | none => .next s
    | some (set, q) =>
      let rec_ := readyRecord c set q s.now
      let s := s.domeWrite (Config.readyRing k j c.ring % 2 ^ 21 * 32) rec_
      let s := s.setVctx k j (some { c with shaping := none, ring := c.ring + 1, shaped := c.shaped ++ [(q.num, some set)] })
      let s := (s.sendOut (partFn c.part) 0x0B (Vid.chan c.params) 0 0 rec_).edge (102 + 8 * k + j)
      .next ((s.meetPicture c q.ts).closeVctx k j)

/-- BUFFER_SET_RELEASE: Dome firmware frees a set that no picture waits in and no step still floods (R262, R263). -/
def execBufferSetRelease (k j set : Nat) (s : State) : Out :=
  match s.vctx k j with
  | none => .next s
  | some c =>
    let waits := c.shaped.any (fun e => e.2 == some set) || (c.shaping.map (·.1)) == some set
    let flooded : Bool := match (s.part c.part).decision with
      | some d => d.pics.any (fun e => e.1 == c.vctx && e.2.1 == set)
      | none => false
    if !c.isDecode || waits || flooded then .next s
    else .next (s.setVctx k j (some { c with used := c.used.filter (· ≠ set) }))

-- Encoding (R265 to R268).

/-- The coder within a picture: bits so far, row QP, mode (0 NORMAL, 1 QP51, 2 SKIP), whether a row was coded at QP 51, and
the choices of the units. -/
structure Coder where
  bits : Nat := 0
  q : Nat := 0
  mode : Nat := 0
  qp51 : Bool := false
  choices : List (Option Nat) := []
  deriving DecidableEq, Repr

/-- What a picture is coded from and to: parameters, reference, samples, type, target and hard limit. -/
structure CodeJob where
  params : Bytes
  ref : Planes
  picture : Planes
  idr : Bool
  target : Option Nat
  limit : Nat
  deriving DecidableEq, Repr

namespace Rc

/-- The target T of a picture (R268). -/
def target (b : Bytes) (idr : Bool) (full : Nat) : Option Nat :=
  if Vid.rcMode b = 0 then none
  else
    let t : Int := (drain b * (if idr then 4 else 1) : Nat) + ((Vid.cpbBits b : Int) - 2 * full).fdiv 16
    some (min (max t (least b)).toNat (Vid.cpbBits b - full))

/-- Bits of a coding unit, in skip mode at most the 32 that Pmin and the check of R268 allow a unit (log 15). -/
def unitBits (w : CodeJob) (choices : List (Option Nat)) (qp : Option Nat) : Nat :=
  let n := Config.unitBits w.params w.ref w.picture w.idr choices qp
  if qp.isNone then min n 32 else n

/-- Bits of a slice header, at most the 1,024 of Pmin, with the parameter sets of an IDR picture 2,048 more (R268, log 15). -/
def headerBits (w : CodeJob) (slice : Nat) : Nat :=
  min (Config.headerBits w.params w.idr slice) (if w.idr && slice == 0 then 3072 else 1024)

/-- One coding unit (R268). -/
def codeUnit (w : CodeJob) (slice : Nat) (c : Coder) : Coder :=
  let b := w.params
  let qp := if c.mode = 2 then none else if c.mode = 1 then some 51 else some c.q
  let n := unitBits w c.choices qp
  let after := units b - c.choices.length - 1
  let exceeds := decide (0 < Vid.cpbBits b) && c.mode != 2
    && decide (w.limit < c.bits + n + 32 * after + 1024 * (slices b - slice - 1) + 64)
  if exceeds then
    { c with bits := c.bits + unitBits w c.choices none, mode := 2, choices := c.choices ++ [none] }
  else { c with bits := c.bits + n, qp51 := c.qp51 || c.mode == 1, choices := c.choices ++ [qp] }

/-- The QP of a row (R268). -/
def rowStart (w : CodeJob) (r : Nat) (c : Coder) : Coder :=
  match w.target with
  | none => c
  | some t =>
    if c.mode ≠ 0 then c
    else if t ≤ c.bits then { c with mode := 1 }
    else
      let b := w.params
      let nr := rows b
      -- S and e + T/16, e - T/16 in 1/(16 NR)
      let c := if 16 * t * r + t * nr < 16 * nr * c.bits then { c with q := min (c.q + 1) (Vid.qpMax b) } else c
      if 16 * nr * c.bits + t * nr < 16 * t * r then { c with q := max (c.q - 1) (Vid.qpMin b) } else c

/-- One row: its QP, the header of a slice that begins with it, and its units. -/
def codeRow (w : CodeJob) (c : Coder) (r : Nat) : Coder :=
  let b := w.params
  let slice := r / Vid.sliceRows b
  let c := rowStart w r c
  let c := if r % Vid.sliceRows b = 0 then { c with bits := c.bits + headerBits w slice } else c
  (List.range (cols b)).foldl (fun c _ => codeUnit w slice c) c

/-- The procedure of R268. -/
def codePicture (w : CodeJob) (q : Nat) : Coder := (List.range (rows w.params)).foldl (codeRow w) { q := q }

/-- Bytes of the filler NAL unit under CBR (R267). -/
def filler (b : Bytes) (full n : Nat) : Nat :=
  if Vid.rcMode b = 1 ∧ full + n < drain b then Vid.cdiv (drain b - full - n) 8 else 0

end Rc

/-- A raw input picture: luma, then Cb and Cr interleaved, rows of Wa samples; a 10-bit sample is the high 10 bits of its 16-bit word
(R265). -/
def Vid.rawPicture (b raw : Bytes) : Planes :=
  let at_ (i : Nat) : Nat := if Vid.bit10 b then u16 raw (2 * i) / 64 else u8 raw i
  let chroma (k : Nat) : List Nat := (List.range (Vid.maxh b / 2)).flatMap (fun y =>
    (List.range (Vid.maxw b / 2)).map (fun x => at_ (Vid.wa b * Vid.ha b + y * Vid.wa b + 2 * x + k)))
  { luma := (List.range (Vid.maxh b)).flatMap (fun y => (List.range (Vid.maxw b)).map (fun x => at_ (y * Vid.wa b + x)))
    cb := chroma 0, cr := chroma 1 }

/-- A raw picture of which DDR4 delivers nothing: the spec does not say what is coded (R278, log 15). -/
def Vid.unread (b : Bytes) : Planes :=
  let pl (i w h : Nat) : List Nat := (List.range h).flatMap (fun y => (List.range w).map (fun x => Config.outsideSample x y i))
  { luma := pl 0 (Vid.maxw b) (Vid.maxh b), cb := pl 1 (Vid.maxw b / 2) (Vid.maxh b / 2), cr := pl 2 (Vid.maxw b / 2) (Vid.maxh b / 2) }

/-- The picture of an input buffer, read under the tenant key (R265, R278). -/
def State.rawPicture (s : State) (c : VidCtx) (set : Nat) : Planes × State :=
  let b := c.params
  let a := coldAddr (Vid.setBase b set)
  let n := Vid.wa b * Vid.ha b * 3 * Vid.sampleBytes b / 2
  match s.coldJudge a n none with
  | (true, s) => (Vid.rawPicture b (s.coldRead (s.tenant (s.part c.part).tenant).key a n), s)
  | (false, s) => (Vid.unread b, s)

/-- A picture is coded: its slices wait to leave, and the buffer model moves on (R266 to R268). -/
def VidCtx.encode (c : VidCtx) (job : EncJob) (picture : Planes) : VidCtx :=
  let b := c.params
  let idr := c.coded == 0 || job.key || (Vid.keyInt b != 0 && decide (Vid.keyInt b ≤ c.sinceIdr))
  let w : CodeJob := { params := b, ref := if idr then {} else c.ref, picture := picture, idr := idr
                       target := Rc.target b idr c.full, limit := Vid.cpbBits b - c.full }
  let q := if Vid.rcMode b = 0 then (if idr then Vid.qpI b else Vid.qpP b)
    else if c.coded = 0 then Vid.qpI b else c.lastQp
  let r := Rc.codePicture w q
  let fill := Rc.filler b c.full r.bits
  let last := Rc.slices b - 1
  let flags (i : Nat) : Nat := 256 * b2n idr + 512 * b2n r.qp51 + 1024 * b2n (r.mode == 2) + 2048 * b2n (i == last)
  { c with
    coded := c.coded + 1, sinceIdr := if idr then 1 else c.sinceIdr + 1, lastQp := r.q
    full := c.full + r.bits + 8 * fill - Rc.drain b
    ref := Config.recon b w.ref picture idr r.choices
    slices := (List.range (last + 1)).map (fun i =>
      (flags i, Config.sliceBytes b w.ref picture idr r.choices i (if i = last then fill else 0))) }

/-- ENCODE_PICTURE: the next submitted job of the pair is coded under rate control, where the rotation comes to its context; the
reconstruction goes to picture storage (R249, R255, R265 to R268). -/
def execEncodePicture (k j : Nat) (s : State) : Out :=
  if s.nextServed k ≠ some j then .next s
  else match s.vctx k j with
  | none => .next s
  | some c =>
    match c.jobs with
    | [] => .next s
    | job :: _ =>
      let b := c.params
      let (picture, s) := s.rawPicture c job.set
      let c := c.encode job picture
      let s := if c.slices.any (fun e => e.1.testBit 10) then s.vidFlag k 3 else s
      let s := s.storePicture c (c.coded % 2) c.ref
      .next ((s.onVpair k (fun v => { v with
        last := j, encPix := sat32 (v.encPix + Vid.maxw b * Vid.maxh b) })).setVctx k j (some c))

/-- SLICE_CODED: the next slice leaves as a VSLICE frame; with the last one the input buffer is free again (R265). -/
def execSliceCoded (k j : Nat) (s : State) : Out :=
  match s.vctx k j with
  | none => .next s
  | some c =>
    match c.slices with
    | [] => .next s
    | (fl, b) :: t =>
      let done := c.jobs.head?.map (·.set)
      let c' := if t.isEmpty then { c with
          slices := [], jobs := c.jobs.drop 1, used := c.used.filter (fun u => some u != done) }
        else { c with slices := t }
      .next (((s.setVctx k j (some c')).sendOut (partFn c.part) 0x0A (Vid.chan c.params) 0 fl b).closeVctx k j)

end Sys2Proof.Machine
end

