-- ==== Sys2Proof/Machine/Resets.lean ====
section
/-!
DEFINITION. Cold, warm and compute resets (R386 to R394, R415, R422, R488), the spare maps that the ROM builds (R396, R397), and
the thermal trip (R372). A partition reset is in PartReset, a context reset in the scrub of a context.
-/
namespace Sys2Proof.Machine

-- Spare maps (R396).

/-- Physical columns of a row whose effective ceiling is below 16 units, beside the fused defects (R60, R396). -/
def State.weakCols (s : State) (row : Nat) : List Nat :=
  let map := mapRow (s.rowDefects row)
  (List.range 34).filter (fun q =>
    let c := s.physCeil row map q
    decide (min c.1 c.2 < 16) && !(Sp.get [] s.bru.fusedDef row).contains q)

/-- One row's map: from at most two defects, the fused ones first; a further defect takes the block of its logical column
out of service (R396). -/
def State.buildRow (s : State) (row : Nat) : State :=
  let all := Sp.get [] s.bru.fusedDef row ++ s.weakCols row
  let defects := all.take 2
  let old := mapRow (s.rowDefects row)
  let new := mapRow defects
  let ceil := (List.range 32).map (fun c => s.physCeil row old (new.getD c 0))
  let aged := (List.range 34).filterMap (fun q => if new.contains q then none else some (q, (s.physCeil row old q).2))
  let s := (List.range 32).foldl (fun s c =>
    let e := ceil.getD c (64, 64)
    s.onCell (32 * row + c) (fun x => { x with fused := e.1, aged := e.2 })) s
  let s := { s with bru := { s.bru with
    defects := Sp.set [] s.bru.defects row defects
    noSpare := if defects.length < 2 then s.bru.noSpare else addOnce row s.bru.noSpare
    physAged := aged.foldl (fun l e => Sp.set none l (34 * row + e.1) (if e.2 = 64 then none else some e.2)) s.bru.physAged } }
  (all.drop 2).foldl (fun s q =>
    match new.findIdx? (· == q) with
    | some c => s.onBlock (blockOf (32 * row + c)) (fun b => { b with oos := true })
    | none => s) s

/-- Every row's map, as a cold and a warm reset rebuild them (R396, R406). -/
def State.buildMaps (s : State) : State :=
  let s := (List.range 16).foldl (fun s b => s.onBlock b (fun k => { k with oos := false })) s
  (List.range 32).foldl State.buildRow { s with bru := { s.bru with noSpare := [] } }

/-- Further defects of the rows, on logical cells of their maps: each is reported as a failure without a spare (R72, R396). -/
def State.reportNoSpare (s : State) : State :=
  (List.range 32).foldl (fun s row =>
    let further := (Sp.get [] s.bru.fusedDef row ++ s.weakCols row).drop 2
    let map := mapRow (s.rowDefects row)
    further.foldl (fun s q =>
      match map.findIdx? (· == q) with
      | some c => let n := 32 * row + c; s.raise 9 0 2 3 255 (locCell s n) (blockOf n)
      | none => s) s) s

-- What resets keep.

/-- The ceilings of a cell, which the Watchtower keeps (R59). -/
def CellState.kept (c : CellState) : CellState := { fused := c.fused, aged := c.aged }

/-- Spare rows and row replacements of a Pan (R139). -/
def PanState.kept (x : PanState) : PanState := { spare := x.spare, replaced := x.replaced }

/-- The sparing state of a channel, which the Watchtower keeps, a copy that runs with it: only its end leaves COPYING (R279, R289, R392). -/
def DdrChan.kept (d : DdrChan) : DdrChan := { sp := d.sp, failed := d.failed, copyDev := d.copyDev, exposedDev := d.exposedDev }

/-- The recorded failure of a Dome core (R451). -/
def Core.kept (c : Core) : Core := if c.st == .failed then { st := .failed, cause := c.cause } else {}

/-- A transfer into a firmware slot ends with any reset (R440). -/
def FwSlot.afterReset (x : FwSlot) : FwSlot := if x.st == .writing then {} else x

/-- The persistent store of the Watchtower (R387, R408, R418, R422, R428, R440, R448). -/
def Watch.kept (w : Watch) : Watch :=
  { serial := w.serial, idSeed := w.idSeed, cert := w.cert, licKey := w.licKey, fwKey := w.fwKey, romHash := w.romHash
    oper := w.oper, plateKeys := w.plateKeys, pins := w.pins, licence := w.licence, addrs := w.addrs, evAddr := w.evAddr
    evPort := w.evPort, mac := w.mac }

def Firmware.kept (f : Firmware) : Firmware :=
  { a := f.a.afterReset, b := f.b.afterReset, fbCount := f.fbCount, set0 := f.set0, set1 := f.set1 }

/-- Entries of an array of records with a part of each kept. -/
def keepAll {α : Type} [DecidableEq α] (d : α) (f : α → α) (l : Sparse α) : Sparse α :=
  l.foldl (fun a e => Sp.set d a e.1 (f e.2)) []

/-- The module without power in its domains: the persistent store, the fuses and the straps on the backplane, and nothing
else (R359, R387). -/
def State.keepStore (s : State) : State :=
  { State.reset with
    pending := s.pending, wire := s.wire, freeCtr := s.freeCtr, rdata := s.rdata
    cells := keepAll {} CellState.kept s.cells
    pans := keepAll {} PanState.kept s.pans
    ddr := keepAll {} DdrChan.kept s.ddr
    dome := { cores := keepAll {} Core.kept s.dome.cores }
    sports := keepAll {} (fun (x : StreamPort) => { mac := x.mac }) s.sports
    watch := s.watch.kept
    fw := s.fw.kept
    faults := { persist := s.faults.persist }
    clk := { pinSlot := s.clk.pinSlot, pinWait := s.clk.pinWait, pinRcv := s.clk.pinRcv }
    bru := { fusedDef := s.bru.fusedDef, defects := s.bru.defects, physAged := s.bru.physAged } }

-- Cold reset.

/-- A cold reset: everything but the persistent store is rebuilt, the straps are sampled, and a boot nonce and a boot key are
drawn (R378, R387, R415). -/
def State.coldReset (s : State) (source : Nat) (full : Bool) : State :=
  let s := s.keepStore
  let (nonce, s) := s.draw
  let (key, s) := s.drawBytes 32
  let c := s.clk
  { s with
    watch := { s.watch with nonce := nonce % 2 ^ 64, bootKey := key }
    clk := { c with slotId := c.pinSlot, oscWait := c.pinWait, romRcv := c.pinRcv, source := source, kind := 1 }
    bru := { s.bru with kind := 1, full := full && source == 3, depth := 5 } }

/-- COLD_RESET: absorbed before the straps are sampled (R391, R405). The module must have power and not be held in reset by
MOD_RESET_N; power-good is POWER_GOOD, and P4 is left by a pin (R359, R481, R482). -/
def execColdReset (source : Nat) (full : Bool) (s : State) : Out :=
  if s.board.st != .on ∨ s.board.p4 ∨ s.board.resetLow then .next s
  else if s.bru.depth = 5 ∧ !s.bru.ended.contains 1 ∧ !s.board.removed ∧ !s.board.p4 ∧ s.board.st == .on ∧ !s.bru.halted then .next s
  else .next (s.coldReset source full)

-- Warm reset.

/-- What the spec calls the module's host-side, compute and stream domains is rebuilt; the Watchtower, the clocks and DDR4
training stay (R387, R392, R422). -/
def State.rebuildDomains (s : State) : State :=
  { s with
    mem := { s.mem with pan := [], ss := [], dome := [], acc := [], vreg := [], pte := [], bind := [], panErr := [], panOnce := []
                        ssErr := [], coldKey := [] }
    cells := keepAll {} CellState.kept s.cells
    pans := keepAll {} PanState.kept s.pans
    ptw := [], parts := [], fns := [], hps := [], streams := [], reflexq := [], reflexCur := []
    sports := keepAll {} (fun (x : StreamPort) => { ({} : StreamPort) with
      mac := x.mac, macsec := x.macsec, rxSa := x.rxSa, txSa := x.txSa, txAn := x.txAn, replayWin := x.replayWin
      rxPn := x.rxPn }) s.sports
    links := s.links.map (fun e => if e.1 ≤ 3 then (e.1, { ({} : Link) with retired := e.2.retired }) else e)
    pair := { s.pair with
      st := .unpaired, term := 0, pserial := 0, pairnum := 0, pmask := 0, lease := none, snapFailed := false, catchTo := []
      resyncCmd := none, snapCmd := none, snapLeft := 0, snapSent := 0, rx := [], snapDone := 0 }
    blocks := keepAll {} (fun (b : Block) => { ({} : Block) with tlimit := b.tlimit, hot := b.hot, thermAt := b.thermAt, temp := b.temp })
      s.blocks
    vpairs := []
    ddr := keepAll {} (fun (d : DdrChan) => { d.kept with trained := d.trained, oos := d.oos, newFail := d.newFail }) s.ddr
    tenants := [], dome := { cores := keepAll {} Core.kept s.dome.cores }
    watch := { s.watch with keys := [], modKey := none }
    mbeat := 0, seqCycle := 0, pmask := 0, scrubs := [], filling := [], latch := [], lowBuf := [] }

/-- No reset at least as deep is in progress, and the module has power and has not lost its contacts (R353, R391). -/
def State.mayReset (s : State) (depth : Nat) : Bool :=
  decide (s.bru.depth < depth) && s.board.st == .on && !s.board.p4 && !s.board.removed && !s.board.tripped && !s.bru.halted

/-- A warm reset; a frame that is being written to a ring is written whole by one EGRESS_WRITE, so none is in progress (R287,
R386, R387, R394). -/
def State.warmReset (s : State) (source : Nat) : State :=
  let s := s.rebuildDomains.buildMaps.reportNoSpare
  { s with
    fw := { s.fw with a := s.fw.a.afterReset, b := s.fw.b.afterReset, xfer := none, data := [], window := none, activate := none, waiting := [] }
    clk := { s.clk with kind := 2, source := source }
    bru := { s.bru with
      kind := 2, full := false, failed := false, isReady := false, depth := 4, ended := [1, 2, 3, 4, 9], trigger := s.now, newCells := 0
      newRows := 0, rebuilding := [] } }

/-- WARM_RESET (R387, R391, R405). -/
def execWarmReset (source : Nat) (s : State) : Out := .next (if s.mayReset 4 then s.warmReset source else s)

-- Compute reset.

/-- A partition's sequencer and deadline state after a compute reset; its step number comes from the partition log (R389,
R392). -/
def Part.afterCompute (x : Part) : Part :=
  { x with
    st := .boundary, err := 0, ctlIgn := false, bwIgn := false, bwBusy := false, list := 0, bwSlot := 0, bwCells := 0, bwE := []
    dl := 0, armed := false, doneTick := 0, ptmStat := 0, miss := 0, limWait := 0, trk := 0, trkDdr := 0, lastBid := 0, quiet := 0
    bset := 0, handles := [], dlMissed := false, listPos := 0, segPos := 0, idleLeft := 0, prefetch := [], fetchList := 0
    fetchPos := 0, pinBuf := [], issued := false, seqq := [], barriers := [], endWait := false, flags := {}, outTaken := []
    unloads := [], deleteCmd := none, recover := 0, commitRec := false, decision := none, plan := {}, bopen := false, bdone := false }

/-- Whole frames that were drained and not logged are never accepted; the host sends them again (R390). -/
def dropFrames : Nat → Bytes → Bytes
  | 0, b => b
  | k + 1, b =>
    let len := 32 + roundUp (Fr.plen b) 8 + (if (Fr.flags b).testBit 4 then 16 else 0)
    if b.length < 32 ∨ b.length < len then b else dropFrames k (b.drop len)

/-- A video context starts again at the next IDR or IRAP picture (R388). -/
def VidCtx.afterCompute (c : VidCtx) : VidCtx :=
  { c with
    input := [], seen := [], out := [], src := none, discarding := c.isDecode, discarded := 0, gap := c.isDecode, dpb := [], auNum := 0
    used := match c.shaping with | some (i, _) => c.used.filter (· ≠ i) | none => c.used
    shaping := none, closeCmd := none, harvested := [] }

/-- One function: frames in egress are discarded, and channel 0 goes on from its watermark (R390). A frame that one of its two rings has
stays bound for the other: of channel 0 as it stands, of another channel once replay hands it to egress again (R288, R317). A load of an
image ends (R107). -/
def Fn.afterCompute (x : Fn) : Fn :=
  let o := x.out 0
  let cut := x.egress.filter (fun g => g.port.isNone && !g.sent.isEmpty)
  let own := cut.filter (fun g => g.chan == 0)
  { (x.setOut 0 { o with next := own.foldl (fun n g => max n (wrap64 (g.seq + 1))) o.watermark }) with
    egress := own, images := []
    half := x.half ++ (cut.filter (fun g => g.chan != 0)).map (fun g => (g.chan, g.seq, g.sent)) }

/-- The log writes that are queued complete, and their frames are accepted (R280, R283). -/
def State.logQueued (s : State) : State :=
  (range2 1 16).foldl (fun s f => (s.fn f).inch.foldl (fun s c =>
    c.2.writing.foldl (fun s _ => s.ackEntry f c.1) s) s) s

/-- A compute reset: the sequencer stops, acknowledged commit records stay committed, DDR4 enters self-refresh, and the block,
Dome, spine and video domains are rebuilt (R280, R387 to R390, R392). -/
def State.computeReset (s : State) (source : Nat) : State :=
  let s := s.logQueued
  let live := (List.range 16).filter (fun p => (s.part p).present)
  let s := live.foldl (fun s p =>
    let x := s.part p
    let s := if x.st == .complete && x.commitRec then s.commitStep p else s
    let s := if x.st == .released && x.reflex then s.dropReflex else s
    (s.resetTaken (partFn p)).onPart p Part.afterCompute) s
  let s := (List.range 17).foldl (fun s f => s.onFn f Fn.afterCompute) s
  { s with
    mem := { s.mem with pan := [], ss := [], dome := [], acc := [], vreg := [], pte := [], bind := [], panErr := [], panOnce := [], ssErr := [] }
    cells := keepAll {} CellState.kept s.cells
    pans := keepAll {} PanState.kept s.pans
    ptw := []
    hps := s.hps.map (fun e =>
      let rest := dropFrames e.2.inbuf.length e.2.inbuf
      (e.1, { e.2 with inbuf := rest, cut := !rest.isEmpty }))
    blocks := s.blocks.map (fun e => (e.1, { e.2 with grants := [], stretch := none, latched := none }))
    vpairs := s.vpairs.map (fun e => (e.1, { e.2 with
      stat := 0, decPix := 0, encPix := 0, synBytes := 0, ahead := 0, ovr := 0, releaseCmd := none
      ctxs := e.2.ctxs.map (fun c => (c.1, c.2.map VidCtx.afterCompute)) }))
    ddr := (List.range 8).foldl (fun l c => Sp.set {} l c { Sp.get {} l c with writes := [], selfRef := true }) s.ddr
    dome := { cores := keepAll {} Core.kept s.dome.cores, wtMsg := s.dome.wtMsg }
    fw := { s.fw with a := s.fw.a.afterReset, b := s.fw.b.afterReset, xfer := none, data := [], waiting := live.filter (fun p => !(s.part p).failed && !(s.part p).scrub) }
    clk := { s.clk with kind := 3, source := source, ncomp := sat16 (s.clk.ncomp + 1) }
    bru := { s.bru with
      kind := 3, full := false, failed := false, isReady := false, depth := 2, ended := [1, 2, 3, 4, 5, 9, 10], trigger := s.now
      newCells := 0, newRows := 0, rebuilding := live.filter (fun p => !(s.part p).failed && !(s.part p).scrub) }
    mbeat := 0, seqCycle := 0, pmask := 0, filling := []
    latch := s.latch.filter (fun e => decide (2 ^ 60 ≤ e.1)), lowBuf := s.lowBuf.filter (fun e => decide (2 ^ 60 ≤ e.1)) }

/-- COMPUTE_RESET (R387, R391, R405). -/
def execComputeReset (source : Nat) (s : State) : Out :=
  .next (if s.mayReset 2 ∧ !s.fw.forfort then s.computeReset source else s)

-- The thermal trip (R354, R372, R467).

/-- Every domain but PD_MGMT and PD_CLK is off: what they held is lost, DDR4 and its training among it. -/
def State.domainsOff (s : State) : State :=
  let s := s.rebuildDomains
  { s with
    mem := {}, ddr := keepAll {} DdrChan.kept s.ddr, bru := { s.bru with isReady := false, halted := true, rebuilding := [] }
    fw := { s.fw with a := s.fw.a.afterReset, b := s.fw.b.afterReset, xfer := none, data := [], window := none, activate := none, waiting := [] } }

/-- THERMAL_TRIP: at 120 °C power is removed; the Watchtower records it and reports it on port M (R372, R468). -/
def execThermalTrip (b temp : Nat) (s : State) : Out :=
  if b > 15 ∨ temp < 1200 ∨ s.board.tripped ∨ s.board.p4 ∨ s.board.st ≠ .on then .next s
  else
    let s := s.raise 20 0 0 9 255 0 (b + 16 * (temp % 4096))
    let s := s.onBlock b (fun k => { k with temp := temp })
    .next { s.domainsOff with board := { s.board with tripped := true } }

end Sys2Proof.Machine
end

