-- ==== Sys2Proof/Machine/Firmware.lean ====
section
/-!
DEFINITION. Firmware update and recovery (R438 to R449): slots and transfers, activation, confirmation, fallback, Forfort, and
the settings.
-/
namespace Sys2Proof.Machine

namespace FwImage

/-- Fields of an image header (R438). -/
def version (b : Bytes) : Nat := u32 b 0x10
def setVer (b : Bytes) : Nat := u16 b 0x14
def serial (b : Bytes) : Nat := u64 b 8

/-- The signed message, and the measurement (R439). -/
def message (b : Bytes) : Bytes := b.take 0xC0 ++ zeros 64 ++ b.drop 0x100
def meas (b : Bytes) : Bytes := Crypto.sha512 (message b)

/-- The signature verifies under the Trearis firmware key (R439). -/
def signed (key b : Bytes) : Bool := Crypto.edVerify key (message b) (slice b 0xC0 64)

def headerOk (b : Bytes) : Bool :=
  u32 b 0 == 0x45544657 && u16 b 4 == 1 && allZero b 0x16 2 && allZero b 0x1C 4 && allZero b 0x40 128 && setVer b != 0
    && u32 b 0x18 == b.length

/-- The first of checks 3 to 7 of R442 that fails. -/
def refusal (key : Bytes) (module : Nat) (complete : Bool) (b : Bytes) : Option Nat :=
  ([(!complete, 3), (!headerOk b, 4), (!signed key b, 5), (u16 b 6 != 0xE700, 6),
    (serial b != 0 && serial b != module, 7)].find? (·.1)).map (·.2)

/-- Check 8 of R442: the slot's flash does not read back what was written (log 41). -/
def flashRefusal (f : Firmware) (i : Nat) : Option Nat := if f.badSlots.contains i then some 8 else none

end FwImage

-- Slots (R440).

def Firmware.slot (f : Firmware) (i : Nat) : FwSlot := if i = 0 then f.a else f.b
def Firmware.setSlot (f : Firmware) (i : Nat) (x : FwSlot) : Firmware := if i = 0 then { f with a := x } else { f with b := x }
def State.onFw (s : State) (g : Firmware → Firmware) : State := { s with fw := g s.fw }

/-- The first slot in a state. -/
def Firmware.slotIn (f : Firmware) (st : SlotState) : Option Nat := [0, 1].find? (fun i => (f.slot i).st == st)

/-- STATE as FW_STATUS numbers it (R441). -/
def SlotState.code : SlotState → Nat
  | .empty => 0 | .writing => 1 | .pending => 2 | .trial => 3 | .current => 4 | .previous => 5 | .failed => 6

/-- The image of a slot becomes the Watchtower's firmware copy (R443). -/
def Firmware.load (f : Firmware) (i : Nat) : Firmware :=
  let x := f.slot i
  { f with running := i, version := x.version, setVer := x.setVer, meas := x.meas }

-- Transfers (R441, R442).

/-- A slot to which FW_BEGIN is answered SLOT_BUSY (R440, R441, R449). -/
def State.slotBusy (s : State) (i : Nat) : Bool :=
  let st := (s.fw.slot i).st
  s.fw.xfer.isSome || st == .pending || st == .writing
    || (!s.fw.forfort && (st == .current || st == .trial || s.fw.running == i && st != .empty))

/-- FW_BEGIN (R440, R441). -/
def execFwBegin (f : Nat) (s : State) : Out :=
  .next (s.command f 0x0701 (fun s c =>
    let i := u8 c.payload 8
    let len := u32 c.payload 0x0C
    s.answer f c [(decide (i > 1) || len % 8 != 0 || decide (len < 256) || decide (33554432 < len), 0x0102), (s.slotBusy i, 1)]
      (fun s => s.onFw (fun w => { w.setSlot i { st := .writing } with xfer := some (i, len), data := [] }))))

/-- FW_BLOCK (R441). -/
def execFwBlock (f : Nat) (s : State) : Out :=
  .next (s.command f 0x0702 (fun s c =>
    let off := u32 c.payload 8
    let n := u32 c.payload 0x0C
    let b := slice c.payload 0x10 n
    match s.fw.xfer with
    | none => s.respond f c.seq 0x0702 0x0104 []
    | some (_, len) =>
      s.answer f c [(off % 8 != 0 || n == 0 || decide (65512 < n) || decide (b.length < n) || decide (len < off + n), 0x0102),
          (mismatch s.fw.data off b, 2)]
        (fun s => s.onFw (fun w => { w with data := Sp.write none w.data off (b.map some) }))))

/-- FW_END (R440, R442). -/
def execFwEnd (f : Nat) (s : State) : Out :=
  .next (s.command f 0x0703 (fun s c =>
    match s.fw.xfer with
    | none => s.respond f c.seq 0x0703 0x0104 []
    | some (i, len) =>
      let data := s.fw.data
      let complete := (List.range len).all (fun k => (Sp.get none data k).isSome)
      let b := (List.range len).map (fun k => (Sp.get none data k).getD 0)
      let s := s.onFw (fun w => { w with xfer := none, data := [] })
      match (FwImage.refusal s.watch.fwKey s.watch.serial complete b).or (FwImage.flashRefusal s.fw i) with
      | some r => (s.onFw (fun w => w.setSlot i {})).respond f c.seq 0x0703 r []
      | none =>
        let slot : FwSlot := { st := .pending, version := FwImage.version b, setVer := FwImage.setVer b, meas := FwImage.meas b, image := b }
        (s.onFw (fun w => w.setSlot i slot)).respond f c.seq 0x0703 0 (le 4 slot.version ++ slot.meas)))

/-- FW_ABORT (R440, R441). -/
def execFwAbort (f : Nat) (s : State) : Out :=
  .next (s.command f 0x0704 (fun s c =>
    match s.fw.xfer with
    | none => s.respond f c.seq 0x0704 0x0104 []
    | some (i, _) => (s.onFw (fun w => { w.setSlot i {} with xfer := none, data := [] })).respond f c.seq 0x0704 0 []))

-- Activation (R443, R449).

/-- A slot goes on trial: by a compute reset, or from Forfort by the bring-up that goes on (R443, R449). -/
def State.activate (s : State) (f : Nat) (c : Cmd) (i : Nat) : State :=
  let s := s.onFw (fun w => { (w.setSlot i { w.slot i with st := .trial }).load i with activate := some c.seq })
  let s := s.hold f c
  if s.fw.forfort then
    { s.onFw (fun w => { w with forfort := false, fbCount := 0 }) with
      bru := { s.bru with ended := addOnce 5 s.bru.ended, depth := if s.bru.kind = 2 then 4 else 5, slot := i } }
  else s.computeReset 5

/-- FW_ACTIVATE (R443). -/
def execFwActivate (f : Nat) (s : State) : Out :=
  .next (s.command f 0x0705 (fun s c =>
    let i := u8 c.payload 8
    let no := [(decide (i > 1), 0x0102),
      (!s.fw.forfort && (!s.bru.isReady || s.bru.depth != 0 || (s.fw.slotIn .trial).isSome), 0x0104),
      ((s.fw.slot i).st != .pending, 9)].find? (·.1)
    match no with
    | some (_, r) => s.respond f c.seq 0x0705 r []
    | none =>
      if FwImage.signed s.watch.fwKey (s.fw.slot i).image then s.activate f c i
      else (s.onFw (fun w => w.setSlot i { w.slot i with st := .failed })).respond f c.seq 0x0705 5 []))

/-- FW_STATUS (R441). -/
def execFwStatus (f : Nat) (s : State) : Out :=
  .next (s.command f 0x0706 (fun s c =>
    let w := s.fw
    let left := match w.window with | some t => (t - s.now) / msTicks | none => 0
    let slot (x : FwSlot) : Bytes :=
      le 1 x.st.code ++ zeros 3 ++ le 4 x.version ++ le 2 x.setVer ++ zeros 2 ++ fit 64 x.meas
    s.respond f c.seq 0x0706 0 (bytes [w.running, w.fbCount, b2n w.forfort, 0] ++ le 4 left ++ slot w.a ++ slot w.b)))

-- Settings (R448).

/-- The settings with which an image starts, and whether they have to be stored: the copy of its own SET_VER with the higher
write count, a migration of the highest lower one, or its defaults (R448). -/
def Firmware.startSettings (f : Firmware) : Firmware :=
  let v := f.setVer
  let copies := [(0, f.set0), (1, f.set1)].filter (fun c => c.2.crcOk)
  let own := copies.filter (fun c => c.2.setVer == v)
  let low := copies.filter (fun c => decide (c.2.setVer < v))
  let best (l : List (Nat × Settings)) (k : Settings → Nat) : Option (Nat × Settings) :=
    match l with
    | [a, b] => if k a.2 < k b.2 then some b else some a
    | [a] => some a
    | _ => none
  match best own (·.writes) with
  | some c => { f with inForce := c.2 }
  | none =>
    match best low (·.setVer) with
    | none => { f with inForce := { setVer := v, crcOk := true, body := Config.settings v [] } }
    | some (i, c) =>
      let new : Settings := { setVer := v, writes := (c.writes + 1) % 2 ^ 32, crcOk := true, body := Config.settings v c.body }
      let other := if i = 0 then f.set1 else f.set0
      -- a copy of a lower SET_VER is never overwritten during a trial
      let spared := (f.slot f.running).st == .trial && other.crcOk && decide (other.setVer < v)
      let f := { f with inForce := new }
      if spared then f else if i = 0 then { f with set1 := new } else { f with set0 := new }

/-- Settings that a trial could not store are stored once it has ended (R448). -/
def Firmware.storeSettings (f : Firmware) : Firmware :=
  if f.set0 == f.inForce || f.set1 == f.inForce then f
  else if f.set0.crcOk && (!f.set1.crcOk || decide (f.set1.setVer ≤ f.set0.setVer)) then { f with set1 := f.inForce }
  else { f with set0 := f.inForce }

-- Confirmation and fallback (R445, R446).

/-- Dome cores in RUN. -/
def State.coresRunning (s : State) : Nat := ((List.range 8).filter (fun c => (s.core c).st == .run)).length

/-- FIRMWARE_CONFIRM (R440, R445). -/
def execFirmwareConfirm (s : State) : Out :=
  let w := s.fw
  let ok := w.window.isSome && decide (6 ≤ s.coresRunning) && w.inForce.setVer == w.setVer && w.waiting.isEmpty
    && s.bru.rebuilding.isEmpty && s.bru.depth == 0
  if !ok then .next s
  else
    let w := { w with window := none }
    let i := w.running
    if (w.slot i).st != .trial then .next { s with fw := w }
    else
      let o := w.slot (1 - i)
      let w := w.setSlot (1 - i) (if o.st == .current then { o with st := .previous } else o)
      let w := w.setSlot i { w.slot i with st := .current }
      .next { s with fw := { w with fbCount := 0 }.storeSettings }

/-- Forfort runs: the module stands as after phase 4 of bring-up (R447, R449). -/
def State.enterForfort (s : State) : State :=
  let s := s.rebuildDomains.buildMaps
  { s with
    fw := { s.fw with forfort := true, window := none, activate := none, waiting := [], xfer := none, data := [] }
    bru := { s.bru with depth := 0, isReady := false, ended := s.bru.ended.filter (fun n => decide (n ≤ 4)), rebuilding := [] } }

/-- A fallback from a slot that has failed: the record, FB_COUNT, and the PREVIOUS slot by a warm reset, or Forfort (R440,
R446). -/
def State.fallback (s : State) (slot reason : Nat) : State :=
  let n := s.fw.fbCount + 1
  let s := s.onFw (fun w => { w.setSlot slot { w.slot slot with st := .failed } with fbCount := n, window := none })
  let s := s.raise 23 reason 0 8 255 0 n
  let o := 1 - slot
  if n < 3 ∧ (s.fw.slot o).st = .previous then
    (s.onFw (fun w => (w.setSlot o { w.slot o with st := .current }).load o)).warmReset 6
  else s.enterForfort

/-- CONFIRMATION_WINDOW_EXPIRY (R440, R445, R446). -/
def execConfirmationWindowExpiry (s : State) : Out :=
  match s.fw.window with
  | some t => .next (if t ≤ s.now ∧ !s.fw.forfort then s.fallback s.fw.running 1 else s)
  | none => .next s

end Sys2Proof.Machine
end

