-- ==== Sys2Proof/Machine/Pair.lean ====
section
/-!
DEFINITION. Paired operation (R337 to R351): the arbiter's line frames, the pair states and the lease, the mirror of decision
records, snapshots, and the pair commands.
-/
namespace Sys2Proof

/-- The firmware's request, sequence and cold-page tables of a partition, as the pieces of SNAP_DOME carry them (R343): the
layout is the firmware's own, log 17. -/
opaque Config.domeTables (reqs : List Machine.Request) (seqs : List Machine.Sequence) (ended : List (Nat × Nat)) : Bytes

/-- The tables that such pieces hold (R343, R350), log 17. -/
opaque Config.readTables (b : Bytes) : List Machine.Request × List Machine.Sequence × List (Nat × Nat)

namespace Machine

-- What the heartbeat tells (R340).

/-- ROLE of a line frame. -/
def PairState.code : PairState → Nat
  | .unpaired => 0 | .wait => 1 | .standby => 2 | .active => 3 | .hold => 4 | .stale => 5 | .resync => 6 | .isolated => 7

/-- Paired partitions. -/
def Pair.parts (x : Pair) : List Nat := (List.range 16).filter (fun p => x.pmask.testBit p)

/-- Decision records held and not yet executed (R340). -/
def State.lag (s : State) : Nat := s.pair.parts.foldl (fun a p => a + (s.part p).held.length) 0

/-- HEALTH is DEGRADED: an exposed channel, a row without a spare, or a failed snapshot (R340, R350). -/
def State.degraded (s : State) : Bool :=
  (List.range 8).any (fun c => (s.dchan c).sp == .exposed) || !s.bru.noSpare.isEmpty || s.pair.snapFailed

/-- HEALTH is CATCHING_UP (R340). -/
def State.catchingUp (s : State) : Bool :=
  (s.pair.st == .standby && s.lag != 0)
    || (s.pair.st == .active && s.pair.catchTo.any (fun e => decide ((s.part e.1).step ≤ e.2)))

/-- HEALTH: SUSPECT overrides both others; which of these two shows when both hold is a free value (log 3). -/
def State.health (s : State) : Nat × State :=
  if s.pair.suspect then (3, s)
  else match s.catchingUp, s.degraded with
  | false, false => (0, s)
  | true, false => (1, s)
  | false, true => (2, s)
  | true, true => let (v, s) := s.draw; (1 + v % 2, s)

/-- A line frame of the module: HEARTBEAT or LOSS (R340). -/
def State.lineFrame (s : State) (ftype : Nat) : State :=
  let (h, s) := s.health
  let b := bytes [ftype, 1, s.pair.st.code, h] ++ le 4 s.pair.term ++ le 8 s.watch.serial ++ le 2 s.clk.slotId ++ bytes [1, 1]
    ++ le 4 s.pair.count ++ le 2 (sat16 s.lag) ++ zeros 2
  { s.out (.line (b ++ le 4 (Crypto.crc32c b))) with
    pair := { s.pair with count := (s.pair.count + 1) % 2 ^ 32, beatAt := some s.now } }

/-- HEARTBEAT: every 10 µs while the arbiter protocol runs (R338, R339). -/
def execHeartbeat (s : State) : Out :=
  let due := match s.pair.beatAt with | none => true | some t => decide (t + 10 * usTicks ≤ s.now)
  if s.pair.st == .unpaired || s.board.removed || !due then .next s else .next (s.lineFrame 1)

-- ROLE frames (R338, R340, R341).

/-- A line frame that is not discarded: its CRC, FTYPE, VER and direction are right (R340). -/
def lineOk (b : Bytes) : Bool :=
  b.length == 32 && u32 b 0x1C == Crypto.crc32c (b.take 28) && u8 b 0 == 2 && u8 b 1 == 1

/-- The arbiter's identity in a valid ROLE frame; its change raises LINK_IDENTITY (R340). -/
def State.noteArbiter (s : State) (serial slot : Nat) : State :=
  let s' := { s with pair := { s.pair with arb := some (serial, slot), lastRole := some s.now, silent := false } }
  match s.pair.arb with
  | some a => if a = (serial, slot) then s' else s'.raise 13 0 5 0 255 (locPort 5 0) serial
  | none => s'

/-- A received line frame with the ROLE wanted: discarded and counted, ignored, or carried out when it counts (R338, R340). -/
def State.roleFrame (s : State) (b : Bytes) (role : Nat) (run : State → State) : State :=
  if !lineOk b then { s with pair := { s.pair with bad := s.pair.bad + 1 } }
  else if u8 b 2 != role || s.pair.st == .unpaired then s
  else
    let s := s.noteArbiter (u64 b 8) (u16 b 0x10)
    if u8 b 0x12 != 1 || decide (u32 b 4 < s.pair.term) then s
    else (run { s with pair := { s.pair with term := u32 b 4 } }).edge 3

/-- ACTIVE with its lease; a promoted standby notes the records that it has to execute first (R341, R345). -/
def State.becomeActive (s : State) : State :=
  let last (p : Nat) : Option (Nat × Nat) :=
    match (s.part p).held.getLast? with
    | some d => some (p, d.step)
    | none => if (s.part p).decision.isSome then some (p, (s.part p).step) else none
  let todo := if s.pair.st == .active || s.pair.st == .hold then s.pair.catchTo else s.pair.parts.filterMap last
  { s with pair := { s.pair with st := .active, lease := some (s.now + 100 * usTicks), catchTo := todo } }

/-- ROLE_ACTIVE (R338, R341). -/
def execRoleActive (frame : Bytes) (s : State) : Out :=
  .next (s.roleFrame frame 1 (fun s =>
    match s.pair.st with
    | .wait | .standby | .active | .hold => s.becomeActive
    | _ => s))

/-- ROLE_STANDBY (R338). -/
def execRoleStandby (frame : Bytes) (s : State) : Out :=
  .next (s.roleFrame frame 2 (fun s =>
    match s.pair.st with
    | .wait | .standby => { s with pair := { s.pair with st := .standby } }
    | .active | .hold => { s with pair := { s.pair with st := .stale, lease := none, catchTo := [] } }
    | _ => s))

/-- ROLE_ISOLATE (R338). -/
def execRoleIsolate (frame : Bytes) (s : State) : Out :=
  .next (s.roleFrame frame 3 (fun s => { s with pair := { s.pair with st := .isolated, lease := none, catchTo := [] } }))

/-- LEASE_EXPIRY (R338, R341). -/
def execLeaseExpiry (s : State) : Out :=
  match s.pair.st, s.pair.lease with
  | .active, some t => .next (if t ≤ s.now then { s with pair := { s.pair with st := .hold, lease := none } }.edge 3 else s)
  | _, _ => .next s

/-- ARBITER_LINK: no valid ROLE frame for 50 µs, once per silence (R340). -/
def execArbiterLink (s : State) : Out :=
  match s.pair.lastRole with
  | none => .next s
  | some t =>
    if s.pair.st == .unpaired || s.pair.silent || decide (s.now < t + 50 * usTicks) then .next s
    else .next (({ s with pair := { s.pair with silent := true } }.raise 14 0 5 0 255 (locPort 5 0) s.pair.st.code).edge 3)

-- Pair commands (R337, R338).

/-- PAIR_CONFIG (R337, R338). -/
def execPairConfig (f : Nat) (s : State) : Out :=
  .next (s.command f 0x0801 (fun s c =>
    let mask := u16 c.payload 0x14
    s.answer f c [((List.range 16).any (fun p => mask.testBit p && (s.part p).present && (s.part p).reflex), 0x0102),
        (s.pair.st != .unpaired, 1)]
      (fun s => { s with pair := { s.pair with
        st := .wait, pserial := u64 c.payload 8, pairnum := u32 c.payload 0x10, pmask := mask, lastRole := some s.now
        silent := false, beatAt := none, snapFailed := false, catchTo := [] } })))

/-- One entry of PAIR_STATUS; the last committed step of a partition that has committed none is a free value (log 3). -/
def State.pairEntry (s : State) (p : Nat) : Bytes × State :=
  let x := s.part p
  if !s.pair.pmask.testBit p then (zeros 16, s)
  else if x.step = 0 then
    let (v, s) := s.draw
    (le 8 v ++ le 4 x.held.length ++ zeros 4, s)
  else (le 8 (x.step - 1) ++ le 4 x.held.length ++ zeros 4, s)

/-- PAIR_STATUS (R337). -/
def execPairStatus (f : Nat) (s : State) : Out :=
  .next (s.command f 0x0802 (fun s c =>
    let (h, s) := s.health
    let (es, s) := (List.range 16).foldl (fun (a : Bytes × State) p =>
      let (e, s) := a.2.pairEntry p
      (a.1 ++ e, s)) ([], s)
    s.respond f c.seq 0x0802 0 (bytes [s.pair.st.code, h, 0, 0] ++ le 4 s.pair.term ++ le 2 s.pair.pmask ++ zeros 6 ++ es)))

/-- A partition that becomes unpaired: records that it has not executed are no decisions of its own (R338). -/
def Part.unpair (x : Part) : Part :=
  { x with held := [], recs := x.recs.filter (fun r => r.commit || !x.held.any (fun d => d.step == r.step)) }

/-- PAIR_UNPAIR (R337, R338). -/
def execPairUnpair (f : Nat) (s : State) : Out :=
  .next (s.command f 0x0803 (fun s c =>
    s.answer f c [(!(s.pair.st == .wait || s.pair.st == .isolated || s.pair.st == .stale), 1)] (fun s =>
      let s := s.pair.parts.foldl (fun s p => s.onPart p Part.unpair) s
      { s with pair := { s.pair with
        st := .unpaired, pserial := 0, pairnum := 0, term := 0, pmask := 0, lease := none, lastRole := none, silent := false
        arb := none, rx := [], snapDone := 0 } })))

/-- PAIR_SUSPECT (R337, R351). -/
def execPairSuspect (f : Nat) (s : State) : Out :=
  .next (s.command f 0x0804 (fun s c =>
    let p := u8 c.payload 8
    s.answer f c [(decide (p > 15), 0x0102), (!(s.part p).present, 0x0106)] (fun s =>
      { s with pair := { s.pair with suspect := true } }.raise 15 0 1 0 p (u32 c.payload 0x10) (u8 c.payload 9))))

/-- PAIR_RESYNC: answered at the move to STANDBY, or when the snapshot fails its checks (R337, R350). -/
def execPairResync (f : Nat) (s : State) : Out :=
  .next (s.command f 0x0805 (fun s c =>
    if !(s.pair.st == .stale || s.pair.st == .wait) then s.respond f c.seq 0x0805 1 []
    else { s.hold f c with pair := { s.pair with st := .resync, resyncCmd := some c.seq, rx := [], snapDone := 0 } }))

/-- The snapshot command is answered once every partition of its mask has been sent; its cold pages are freed (R337, R349). -/
def State.endSnapshot (s : State) : State :=
  match s.pair.snapCmd with
  | none => s
  | some q =>
    if s.pair.snapLeft != 0 || (List.range 16).any (fun p => (s.part p).snapshot.isSome && !s.pair.snapSent.testBit p) then s
    else
      let s := (List.range 16).foldl (fun s p =>
        if (s.part p).snapshot.isSome then s.onPart p (fun x => { x with snapshot := none }) else s) s
      { s with pair := { s.pair with snapCmd := none, snapSent := 0 } }.respond 0 q 0x0806 0 []

/-- PAIR_SNAPSHOT (R337, R349). -/
def execPairSnapshot (f : Nat) (s : State) : Out :=
  .next (s.command f 0x0806 (fun s c =>
    let mask := u16 c.payload 8
    if (List.range 16).any (fun p => mask.testBit p && !(s.part p).present) then s.respond f c.seq 0x0806 0x0106 []
    else if s.pair.st != .active then s.respond f c.seq 0x0806 1 []
    else { s.hold f c with pair := { s.pair with snapCmd := some c.seq, snapLeft := mask, snapSent := 0 } }.endSnapshot))

-- Snapshots (R343, R349, R350).

/-- The part of a SNAP_BEGIN body that names handles (R349). -/
def Part.handleBytes (x : Part) : Bytes :=
  let l := x.attestEntries
  le 4 l.length ++ l.flatMap (fun e => le 4 e.1 ++ le 4 e.2.1 ++ fit 64 e.2.2)

/-- Configured channels 1-255 of a function, in ascending order. -/
def Fn.inChans (x : Fn) : List Nat := (x.inch.filter (fun e => e.1 != 0 && e.2.configured)).map (·.1)
def Fn.outChans (x : Fn) : List Nat := (x.outch.filter (fun e => e.1 != 0 && e.2.configured)).map (·.1)

/-- Pieces of a byte string, with their offsets. -/
def snapPieces (n : Nat) : Nat → Nat → Bytes → List (Nat × Bytes)
  | 0, _, _ => []
  | k + 1, off, b => if b.isEmpty then [] else (off, b.take n) :: snapPieces n k (off + n) (b.drop n)

/-- The bodies of a snapshot in order, with their MKIND (R343, R349). -/
def snapBodies (x : Part) (f : Fn) (c : Checkpoint) (ins : List (Nat × Nat)) : List (Nat × Bytes) :=
  let begin_ := x.handleBytes
    ++ f.inChans.flatMap (fun ch => le 8 (((ins.find? (·.1 == ch)).map (·.2)).getD 0))
    ++ f.outChans.flatMap (fun ch => le 8 (((c.outs.find? (·.1 == ch)).map (·.2)).getD 0))
  let tables := Config.domeTables c.reqs c.seqs c.ended
  let dome := (snapPieces 32768 (tables.length + 1) 0 tables).map (fun e => (3, le 4 e.1 ++ e.2))
  let page (row : Nat) : List (Nat × Bytes) :=
    let entry := ((c.ptes.find? (·.1 == row)).map (·.2)).getD 0
    (List.range 4).map (fun q => (4, le 4 row ++ le 4 (32768 * q) ++ le 8 entry.toNat
      ++ (List.range 32768).map (fun i => Memory.byte c.bytes (row * pageBytes + 32768 * q + i))))
  (2, begin_) :: dome ++ c.pages.flatMap (fun e => page e.1)

/-- The header of a MIRROR payload (R343). -/
def mirrorHeader (kind term step : Nat) : Bytes := le 1 kind ++ zeros 3 ++ le 4 term ++ le 8 step

/-- SNAPSHOT_TRANSMIT: once step S + 1, whose prelude holds the harvest, has completed, the frames of the snapshot go to egress
on channel 0 in order (R349). -/
def execSnapshotTransmit (p : Nat) (s : State) : Out :=
  let x := s.part p
  match x.snapshot with
  | none => .next s
  | some (c, ins) =>
    let harvested := decide (c.step + 1 < x.step) || (x.step == c.step + 1 && x.st == .complete)
    if s.pair.snapSent.testBit p || !harvested then .next s
    else
      let f := partFn p
      let bodies := snapBodies x (s.fn f) c ins
      let last := (5, le 4 bodies.length ++ Crypto.sha512 (bodies.flatMap (·.2)))
      let s := (bodies ++ [last]).foldl (fun s b =>
        s.sendOut f 0x0F 0 0 0 (mirrorHeader b.1 s.pair.term c.step ++ b.2)) s
      .next { s with pair := { s.pair with snapSent := s.pair.snapSent ||| 2 ^ p } }.endSnapshot

/-- MIRROR_DECISION: the oldest frame of a function's input buffer, when it is a MIRROR, is checked, refused or logged (R302,
R345, R346). -/
def execMirrorDecision (port f : Nat) (s : State) : Out :=
  if port > 1 ∨ f = 0 ∨ f > 16 ∨ s.bru.depth = 2 then .next s
  else .next (s.receiveFrame port f (fun b => Fr.typ b == 0x0F))

/-- The oldest waiting SNAP frame of a function is taken, if it is of the kind wanted; outside a resynchronisation it has no
effect (R338, R350). -/
def State.takeSnap (s : State) (f kind : Nat) (run : State → Bytes → State) : State :=
  match (s.fn f).mirrors with
  | [] => s
  | m :: t =>
    if f = 0 ∨ f > 16 ∨ u8 m 0 ≠ kind then s
    else
      let s := s.onFn f (fun x => { x with mirrors := t })
      let open_ := s.pair.st == .resync || (s.pair.st == .standby && s.pair.snapDone != 0)
      if open_ && s.pair.pmask.testBit (f - 1) && !s.pair.snapDone.testBit (f - 1) then run s m else s

def State.snapRx (s : State) (p : Nat) : SnapRx := Sp.get {} s.pair.rx p
def State.setSnapRx (s : State) (p : Nat) (x : SnapRx) : State := { s with pair := { s.pair with rx := Sp.set {} s.pair.rx p x } }

/-- A body joins those that the hash of SNAP_END covers (R343). -/
def SnapRx.add (x : SnapRx) (body : Bytes) : SnapRx := { x with body := x.body ++ body, frames := x.frames + 1 }

/-- SNAP_BEGIN (R350). -/
def execSnapBegin (f : Nat) (s : State) : Out :=
  .next (s.takeSnap f 2 (fun s m =>
    let own := (s.part (f - 1)).handleBytes
    let body := m.drop 16
    let x : SnapRx := { begun := true, step := u64 m 8, head := body, ok := body.take own.length == own }
    s.setSnapRx (f - 1) (x.add body)))

/-- SNAP_DOME (R343). -/
def execSnapDome (f : Nat) (s : State) : Out :=
  .next (s.takeSnap f 3 (fun s m =>
    let x := s.snapRx (f - 1)
    if !x.begun then s
    else
      let off := u32 m 0x10
      s.setSnapRx (f - 1) ({ x with dome := fit off x.dome ++ m.drop 0x14 }.add (m.drop 16))))

/-- SNAP_PAGE (R343). -/
def execSnapPage (f : Nat) (s : State) : Out :=
  .next (s.takeSnap f 4 (fun s m =>
    let x := s.snapRx (f - 1)
    if !x.begun then s
    else
      let e := (u32 m 0x10, BitVec.ofNat 64 (u64 m 0x18), u32 m 0x14, slice m 0x20 32768)
      s.setSnapRx (f - 1) ({ x with pages := x.pages ++ [e] }.add (m.drop 16))))

/-- Pages of the partition come from the snapshot: the entries by RESTORE, the contents by flood (R350). -/
def State.restorePages (s : State) (p : Nat) (x : SnapRx) : State :=
  let s := (s.savedRows p false).foldl State.freeWhole s
  x.pages.foldl (fun s e =>
    if !(s.part p).hasCell (pageCell e.1) then s
    else (s.panWrite (e.1 * pageBytes + e.2.2.1) e.2.2.2).setPte e.1 (ptEntry 8 0 e.2.1)) s

/-- Channels take their numbers from SNAP_BEGIN; entries of the input rings that came before are dropped (R350). -/
def State.restoreNumbers (s : State) (p : Nat) (head : Bytes) : State :=
  let f := partFn p
  let off := 4 + 72 * u32 head 0
  let fn := s.fn f
  let ins := fn.inChans.zipIdx.map (fun e => (e.1, u64 head (off + 8 * e.2)))
  let outs := fn.outChans.zipIdx.map (fun e => (e.1, u64 head (off + 8 * (fn.inChans.length + e.2))))
  s.onFn f (fun x =>
    let x := ins.foldl (fun (x : Fn) e => let c := x.in_ e.1
      x.setIn e.1 { c with next := e.2, entries := [], writing := [], ring := { c.ring with rel := c.ring.head } }) x
    outs.foldl (fun (x : Fn) e => x.setOut e.1 { x.out e.1 with next := e.2 }) x)

/-- A snapshot that has passed: pages, tables and numbers, and the partition stands at the boundary of step S + 1 (R350). -/
def State.restoreSnapshot (s : State) (p : Nat) (x : SnapRx) : State :=
  let (reqs, seqs, ended) := Config.readTables x.dome
  let s := (s.restorePages p x).restoreNumbers p x.head
  let n := x.step + 1
  s.onPart p (fun y => { y with
    step := n, st := .boundary, decision := none, commitRec := false, evts := [], bdone := false, bopen := false, tb := s.now, cancels := []
    plan := {}
    reqs := reqs, seqs := seqs, endedReqs := ended, ckpts := [], pendCkpt := none, rebuildTo := none, recover := 0
    held := y.held.filter (fun d => decide (n ≤ d.step)), recs := y.recs.filter (fun r => decide (n ≤ r.step)) })

/-- PAIR_RESYNC is answered (R350). -/
def State.answerResync (s : State) (result : Nat) : State :=
  match s.pair.resyncCmd with
  | none => s
  | some q => { s with pair := { s.pair with resyncCmd := none } }.respond 0 q 0x0805 result []

/-- SNAP_END (R338, R350). -/
def execSnapEnd (f : Nat) (s : State) : Out :=
  .next (s.takeSnap f 5 (fun s m =>
    let p := f - 1
    let x := s.snapRx p
    let s := s.setSnapRx p {}
    if x.begun && x.ok && u32 m 0x10 == x.frames && slice m 0x14 64 == Crypto.sha512 x.body then
      let s := s.restoreSnapshot p x
      { s with pair := { s.pair with st := .standby, snapFailed := false, snapDone := s.pair.snapDone ||| 2 ^ p } }.answerResync 0
    else { s with pair := { s.pair with snapFailed := true } }.answerResync 2))

end Machine
end Sys2Proof
end

