-- ==== Sys2Proof/Machine/Streams.lean ====
section
/-!
DEFINITION. Stream ports (R319 to R334): what a port takes and discards, SENSOR, RTP and REFLEX datagrams, address resolution and
the deadlines of stream entries.
-/
namespace Sys2Proof.Machine

-- Addresses (R320, R412, R421).

/-- The address set of a port: 0 S0, 1 S1, 2 M (R421). -/
def State.portAddr (s : State) (port : Nat) : PortAddr := Sp.get {} s.watch.addrs port

/-- The MAC address of a port (R320, R412). -/
def State.portMac (s : State) (port : Nat) : Nat := if port = 2 then s.watch.mac else (s.sport port).mac

/-- The link-local IPv6 address of a MAC address, by modified EUI-64 (R412). -/
def linkLocal (mac : Nat) : Nat :=
  0xFE80 * 2 ^ 112 + (mac / 2 ^ 24 ^^^ 2 ^ 17) * 2 ^ 40 + 0xFFFE * 2 ^ 24 + mac % 2 ^ 24

/-- An address that a port holds (R320, R412). -/
def State.ownAddr (s : State) (port a : Nat) : Bool :=
  let x := s.portAddr port
  (x.ipv4 != 0 && a == v4mapped x.ipv4) || (x.ipv6 != 0 && a == x.ipv6) || (port == 2 && a == linkLocal s.watch.mac)

/-- An 802.1Q tag is the port's own (R319). -/
def State.vlanOk (s : State) (port : Nat) (vlan : Option Nat) : Bool :=
  match vlan with | none => true | some v => v == (s.portAddr port).vid

/-- A frame discarded by a stream port is counted (R320). -/
def State.rxDrop (s : State) (port : Nat) : State := s.onSport port (fun x => { x with rxDrop := sat32 (x.rxDrop + 1) })

-- Address resolution (R320, R412).

/-- An ARP request or neighbour solicitation for an own address that a port takes: VLAN, address and asker, with the port's state after
link security. -/
def State.asked (s : State) (port : Nat) (b : Bytes) : Option ((Option Nat × Nat × Nat) × StreamPort) :=
  match (s.sport port).receive b with
  | none => none
  | some (r, x) =>
    match Eth.request r with
    | none => none
    | some q =>
      if s.vlanOk port q.1 && s.ownAddr port q.2.1 && (Eth.dst b == s.portMac port || Eth.group (Eth.dst b)) then some (q, x) else none

/-- ADDRESS_RESOLUTION: the frame is a destination address and the bytes behind it. A request for an own address of S0, S1 or M (0 to 2) is
answered, through the port's secure channel; any other is discarded, and counted on a stream port (R320, R321, R412). -/
def execAddressResolution (port dst : Nat) (rest : Bytes) (s : State) : Out :=
  if 2 < port then .next s
  else match s.asked port (be 6 dst ++ rest) with
  | none => .next (if port = 2 then s else s.rxDrop port)
  | some ((vlan, target, asker), x) =>
    match (s.setSport port x).transmit port with
    | none => .next (s.setSport port x)
    | some (pn, s) => .next (s.out (.neighbour port target asker vlan pn))

-- Ingress (R319 to R321, R324).

/-- The entry that a datagram belongs to: one with a source address before one without (R324). -/
def State.entryOf (s : State) (port : Nat) (d : Datagram) : Option (Nat × StreamEntry) :=
  let fits (e : StreamEntry) : Bool := e.onPort port && e.udp == d.dstPort
  match s.findStream (fun e => fits e && e.src != 0 && e.src == d.srcIp) with
  | some e => some e
  | none => s.findStream (fun e => fits e && e.src == 0)

/-- The silence deadline is armed again by a matching datagram (R328). -/
def StreamEntry.heard (e : StreamEntry) (now : Nat) : StreamEntry :=
  if e.periodUs = 0 then e else { e with silence := some (now + usTicks * e.periodUs) }

/-- The datagram of a frame that a port receives, with the entry that it belongs to and the port after link security; none where the frame
matches no entry (R319 to R321, R324). -/
def State.received (s : State) (port : Nat) (b : Bytes) : Option (Datagram × Nat × StreamEntry × StreamPort) :=
  match (s.sport port).receive b with
  | none => none
  | some (r, x) =>
    match Eth.datagram (Eth.src b) r with
    | none => none
    | some d =>
      if Eth.dst b == s.portMac port && s.vlanOk port d.vlan && s.ownAddr port d.dstIp then
        (s.entryOf port d).map (fun e => (d, e.1, e.2, x))
      else none

/-- A frame that matches no entry is discarded and counted, but for a request of address resolution that ADDRESS_RESOLUTION answers
(R320). -/
def State.unmatched (s : State) (port : Nat) (b : Bytes) : State := if (s.asked port b).isSome then s else s.rxDrop port

/-- A frame of an entry of a kind: handled, or discarded and counted. -/
def State.datagram (s : State) (port : Nat) (b : Bytes) (kind : Nat) (run : State → Nat → StreamEntry → Datagram → State) : State :=
  if port > 1 then s
  else match s.received port b with
  | none => s.unmatched port b
  | some (d, i, e, x) =>
    let e' := e.heard s.now
    if e.kind = kind then run ((s.setSport port x).setStream i (some e')) i e' d else s

/-- STREAM_FRAME_DISCARD: a frame that matches no entry, by its address, its checks or its link security (R320). -/
def execStreamFrameDiscard (port : Nat) (frame : Bytes) (s : State) : Out :=
  if port > 1 then .next s
  else match s.received port frame with
  | none => .next (s.unmatched port frame)
  | some _ => .next s

-- SENSOR frames (R326).

/-- The Kigrim frame of a SENSOR or REFLEX datagram passes its checks, with the FLAGS that its kind asks (R326, R330). -/
def streamFrameOk (e : StreamEntry) (b : Bytes) (flags : Nat) : Bool :=
  decide (32 ≤ b.length) && Fr.typ b == 5 && Fr.ver b == 1 && Fr.chan b == e.chan && Fr.ctx b == e.vctx && Fr.flags b == flags
    && Fr.reservedOk b && u64 b 20 == 0 && decide (Fr.plen b ≤ 8960) && b.length == 32 + Fr.plen b

/-- A SENSOR frame against its channel's numbers (R326). -/
def State.sensorFrame (s : State) (port i : Nat) (e : StreamEntry) (b : Bytes) : State :=
  let f := partFn e.part
  let c := (s.fn f).in_ e.chan
  let seq := Fr.seq b
  if !streamFrameOk e b 0 then s.rxDrop port
  else if c.configured && decide (seq < c.expected) then s
  else if !c.configured || !c.fits b then s.rxDrop port
  else
    let gap := seq - c.expected
    (s.onIn f e.chan (fun c => { c with writing := c.writing ++ [(seq, b, 2 + i)] })).onSport port
      (fun x => { x with seqGap := sat32 (x.seqGap + gap) })

/-- SENSOR_DATAGRAM (R326); discarded and counted during a compute reset (R390). -/
def execSensorDatagram (port : Nat) (frame : Bytes) (s : State) : Out :=
  .next (s.datagram port frame 2 (fun s i e d => if s.bru.depth = 2 then s.rxDrop port else s.sensorFrame port i e d.payload))

-- REFLEX frames (R330).

/-- A REFLEX request is discarded and counted (R330). -/
def State.reflexDropped (s : State) (port : Nat) : State :=
  s.onSport port (fun x => { x with reflexDrop := sat32 (x.reflexDrop + 1), stat := setBit x.stat 2 })

/-- A REFLEX frame enters its queue of four (R328, R330). -/
def State.reflexFrame (s : State) (port i : Nat) (e : StreamEntry) (d : Datagram) : State :=
  let b := d.payload
  let q := Sp.get [] s.reflexq e.chan
  if !streamFrameOk e b 8 then s.rxDrop port
  else if (s.part e.part).st != .released || decide (4 ≤ q.length) then s.reflexDropped port
  else
    let r : ReflexReq := {
      port := port, ethSrc := d.ethSrc, vlan := d.vlan, srcIp := d.srcIp, dstIp := d.dstIp, srcPort := d.srcPort, tick := s.now
      seq := Fr.seq b, payload := Fr.payload b }
    { s.setStream i (some { e with reflexDl := e.reflexDl ++ [s.now + usTicks] }) with
      reflexq := Sp.set [] s.reflexq e.chan (q ++ [r]) }

/-- REFLEX_DATAGRAM (R330); discarded and counted during a compute reset (R390). -/
def execReflexDatagram (port : Nat) (frame : Bytes) (s : State) : Out :=
  .next (s.datagram port frame 3 (fun s i e d => if s.bru.depth = 2 then s.reflexDropped port else s.reflexFrame port i e d))

-- RTP (R327).

namespace Rtp

/-- Fields of the RTP header (RFC 3550). -/
def version (b : Bytes) : Nat := u8 b 0 / 64
def padding (b : Bytes) : Bool := (u8 b 0).testBit 5
def extension (b : Bytes) : Bool := (u8 b 0).testBit 4
def csrcs (b : Bytes) : Nat := u8 b 0 % 16
def marker (b : Bytes) : Bool := (u8 b 1).testBit 7
def payloadType (b : Bytes) : Nat := u8 b 1 % 128
def seq (b : Bytes) : Nat := beNat (slice b 2 2)
def stamp (b : Bytes) : Nat := beNat (slice b 4 4)
def ssrc (b : Bytes) : Nat := beNat (slice b 8 4)

/-- The payload, with CSRC entries, header extension and padding skipped. -/
def payload (b : Bytes) : Bytes :=
  let off := 12 + 4 * csrcs b
  let off := if extension b then off + 4 + 4 * beNat (slice b (off + 2) 2) else off
  let pad := if padding b then u8 b (b.length - 1) else 0
  (b.drop off).take (b.length - off - pad)

/-- The NAL units of an aggregation packet: each with its 16-bit size. -/
def aggregated : Nat → Bytes → List Bytes
  | 0, _ => []
  | k + 1, b =>
    let n := beNat (b.take 2)
    if b.length < 2 ∨ n = 0 ∨ b.length < 2 + n then [] else slice b 2 n :: aggregated k (b.drop (2 + n))

/-- One fragment: whether it starts and ends a NAL unit, the unit's header, and the fragment's bytes. -/
structure Fragment where
  first : Bool := false
  last : Bool := false
  head : Bytes := []
  data : Bytes := []
  deriving DecidableEq, Repr

/-- What a payload holds: whole NAL units, a fragment, or something that is not supported (RFC 6184, RFC 7798). -/
inductive Unit where
  | whole (l : List Bytes) | part (f : Fragment) | other
  deriving DecidableEq, Repr

/-- A payload of H.264 (RFC 6184, modes 0 and 1). -/
def h264 (b : Bytes) : Unit :=
  let t := u8 b 0 % 32
  if b.isEmpty then .other
  else if 1 ≤ t ∧ t ≤ 23 then .whole [b]
  else if t = 24 then .whole (aggregated b.length (b.drop 1))
  else if t = 28 ∧ 2 ≤ b.length then
    let h := u8 b 1
    .part { first := h.testBit 7, last := h.testBit 6, head := bytes [u8 b 0 / 32 * 32 + h % 32], data := b.drop 2 }
  else .other

/-- A payload of H.265 (RFC 7798, without DONL); PACI packets are discarded. -/
def h265 (b : Bytes) : Unit :=
  let t := u8 b 0 / 2 % 64
  if b.length < 2 then .other
  else if t < 48 then .whole [b]
  else if t = 48 then .whole (aggregated b.length (b.drop 2))
  else if t = 49 ∧ 3 ≤ b.length then
    let h := u8 b 2
    .part { first := h.testBit 7, last := h.testBit 6, head := bytes [u8 b 0 / 128 * 128 + h % 64 * 2 + u8 b 0 % 2, u8 b 1], data := b.drop 3 }
  else .other

end Rtp

/-- One packet in order: its NAL units, and the end of the access unit at its marker bit (R327). -/
def State.rtpDeliver (s : State) (port i : Nat) (codec : Nat) (b : Bytes) : State :=
  match s.stream i with
  | none => s
  | some e =>
    let put (s : State) (l : List NalItem) : State := s.videoInput e.part e.vctx l
    let s : State := match (if codec = 1 then Rtp.h264 (Rtp.payload b) else Rtp.h265 (Rtp.payload b)) with
      | .whole l => put (s.setStream i (some { e with frag := [] })) (l.map .nal)
      | .part f =>
        let sofar := if f.first then f.head ++ f.data else if e.frag.isEmpty then [] else e.frag ++ f.data
        if f.last && !sofar.isEmpty then put (s.setStream i (some { e with frag := [] })) [.nal sofar]
        else s.setStream i (some { e with frag := sofar })
      | .other => s.rxDrop port
    if Rtp.marker b then put s [.auEnd (Rtp.stamp b)] else s

/-- A gap leaves the reorder window: a LOSS marker comes before the next NAL unit, and a unit under way is lost (R256, R327). -/
def State.rtpGap (s : State) (i : Nat) : State :=
  match s.stream i with
  | some e => (s.setStream i (some { e with frag := [] })).videoInput e.part e.vctx [.loss]
  | none => s

/-- Packets leave the window in order: those whose turn has come, and those that must leave because the place `upto` has come
into the window; `gap` says that a place before was empty. -/
def State.rtpDrain (port i codec : Nat) : Nat → Nat → Bool → State → State
  | 0, _, _, s => s
  | k + 1, must, gap, s =>
    match s.stream i with
    | none => s
    | some e =>
      let next := e.rtpNext.getD 0
      let step (s : State) (e : StreamEntry) : State := s.setStream i (some { e with rtpNext := some ((next + 1) % 65536) })
      match e.window.find? (fun w => w.1 == next) with
      | some w =>
        let s := step s { e with window := dropOne w e.window }
        let s := if gap then s.rtpGap i else s
        State.rtpDrain port i codec k (must - 1) false (s.rtpDeliver port i codec w.2)
      | none =>
        if must = 0 then (if gap then s.rtpGap i else s)
        else State.rtpDrain port i codec k (must - 1) true (step s e)

/-- A packet enters the reorder window of 64 (R327). -/
def State.rtpPacket (s : State) (port i codec : Nat) (e : StreamEntry) (b : Bytes) : State :=
  let n := Rtp.seq b
  let next := e.rtpNext.getD n
  let d := (n + 65536 - next) % 65536
  if 32768 ≤ d || e.window.any (fun w => w.1 == n) then s.rxDrop port
  else
    let lat := if Rtp.marker b && e.latUs != 0 then e.lat ++ [(Rtp.stamp b, s.now + usTicks * e.latUs)] else e.lat
    let e := { e with rtpNext := some next, window := e.window ++ [(n, b)], lat := lat }
    let must := d - 63
    State.rtpDrain port i codec (must + 65) must false (s.setStream i (some e))

/-- An RTP datagram against its entry and its video context (R322, R327). -/
def State.rtpFrame (s : State) (port i : Nat) (e : StreamEntry) (b : Bytes) : State :=
  let ssrcOk := if e.ssrcField != 0 then Rtp.ssrc b == e.ssrcField else match e.ssrc with | some x => Rtp.ssrc b == x | none => true
  let ok := decide (12 ≤ b.length) && Rtp.version b == 2 && (e.payloadType == 0xFF || e.payloadType == Rtp.payloadType b) && ssrcOk
  match s.findVctx e.part e.vctx with
  | some (_, _, c) =>
    if !ok || !c.isDecode then s.rxDrop port
    else
      let e := { e with ssrc := some (Rtp.ssrc b) }
      (s.setStream i (some e)).rtpPacket port i (Vid.codec c.params) e b
  | none => s.rxDrop port

/-- RTP_DATAGRAM (R327). -/
def execRtpDatagram (port : Nat) (frame : Bytes) (s : State) : Out :=
  .next (s.datagram port frame 1 (fun s i e d => s.rtpFrame port i e d.payload))

-- Deadlines (R127, R328, R332).

/-- STREAM_DEADLINE_EXPIRY: the deadline tick of an entry has passed and its awaited event has not come; sensor latency is judged
at each commit (R127, R328, R332). -/
def execStreamDeadlineExpiry (i : Nat) (k : DeadlineKind) (s : State) : Out :=
  match s.stream i with
  | none => .next s
  | some e =>
    if i > 31 then .next s
    else match k with
    | .silence =>
      match e.silence with
      | some t =>
        if t < s.now then .next ((s.setStream i (some { e with silence := none })).raiseMiss e.part 3 6 i (sat32 (s.now - t)))
        else .next s
      | none => .next s
    | .latency => .next s
    | .picture =>
      match e.lat.find? (fun l => decide (l.2 < s.now)) with
      | some l =>
        .next ((s.setStream i (some { e with lat := dropOne l e.lat })).raiseMiss e.part 5 6 i (sat32 (s.now - l.2)))
      | none => .next s
    | .reflex =>
      match e.reflexDl.find? (fun t => decide (t < s.now)) with
      | some t =>
        .next ((s.setStream i (some { e with reflexDl := dropOne t e.reflexDl })).raiseMiss e.part 6 6 i (sat32 (s.now - t)))
      | none => .next s

end Sys2Proof.Machine
end

