-- ==== Sys2Proof/Machine/Links.lean ====
section
/-!
DEFINITION. Links H0, H1, S0, S1, M and A, numbered 0 to 5 as R335 codes them: the identity of the far end (R335), lane remap and
training (R393, R405, R486 to R488), and losses of lock (R467, R476).
-/
namespace Sys2Proof.Machine

-- The far end (R335).

/-- Ethernet links: S0, S1 and M. -/
def isEthernet (port : Nat) : Bool := port == 2 || port == 3 || port == 4

/-- LLDP_TRANSMIT: when the link comes up and then every second, with a TTL of 4 s (R335). -/
def execLldpTransmit (port : Nat) (s : State) : Out :=
  let x := s.link port
  let due := match x.lldpAt with | none => true | some t => decide (t + secTicks ≤ s.now)
  if !isEthernet port || !x.up || s.board.removed || !due then .next s
  else .next ((s.setLink port { x with lldpAt := some s.now }).out (.lldp port 4 s.watch.serial s.clk.slotId port))

/-- The far end's serial or hash, as STP_FAR holds it (R336). -/
def farNumber : FarEnd → Nat
  | .tlv serial _ _ => serial % 2 ^ 64
  | .hash ids => Config.identityHash ids % 2 ^ 64

/-- The identity as it is recorded: the Trearis fields, or the hash (R335). -/
def farRecord : FarEnd → Nat × Option (Nat × Nat)
  | .tlv serial slot port => (serial % 2 ^ 64, some (slot % 4096, port % 8))
  | .hash ids => (Config.identityHash ids % 2 ^ 64, none)

/-- The far-end identity of a port changed or expired (R335). -/
def State.identEvent (s : State) (port detail : Nat) : State :=
  let s := if port = 2 ∨ port = 3 then s.onSport (port - 2) (fun x => { x with stat := setBit x.stat 4 }) else s
  s.raise 13 0 5 0 255 (locPort port 0) detail

/-- The recorded identity expires; the spec gives the record's DETAIL only for a new identity: a free value (log 3). -/
def State.farExpires (s : State) (port : Nat) : State :=
  let (v, s) := s.draw
  (s.onLink port (fun x => { x with farValid := false })).identEvent port v

/-- LLDP_RECEIVE: the partner's last LLDPDU is recorded for its TTL; one with TTL 0 ends the record (R335). -/
def execLldpReceive (port ttl : Nat) (far : FarEnd) (s : State) : Out :=
  if !isEthernet port then .next s
  else
    let x := s.link port
    if ttl = 0 then .next (if x.farValid then s.farExpires port else s)
    else
      let changed := match x.far with | some f => farRecord f != farRecord far | none => false
      let s := s.setLink port { x with far := some far, farValid := true, farExpiry := s.now + secTicks * ttl }
      .next (if changed then s.identEvent port (farNumber far) else s)

/-- LLDP_EXPIRY (R335). -/
def execLldpExpiry (port : Nat) (s : State) : Out :=
  let x := s.link port
  if isEthernet port && x.farValid && decide (x.farExpiry ≤ s.now) then .next (s.farExpires port) else .next s

-- Lanes (R479, R486, R487).

/-- Lanes of a port without its spare pair, and its full width (R479). -/
def fullWidth (port : Nat) : Nat := match port with | 0 | 1 => 8 | 2 | 3 => 4 | _ => 1

/-- The spare pair has the highest lane number. -/
def spareLane (port : Nat) : Nat := fullWidth port

/-- RETIRE of the module's remap words: the retired lane, or none, with the offer of the two-lane mode on a stream port (R486,
R487). Which lane is named when two or more are retired is a free value (log 3). -/
def State.retireByte (s : State) (port : Nat) : Nat × State :=
  let l := (s.link port).retired
  let (v, s) := if 2 ≤ l.length then s.draw else (0, s)
  match l[v % max 1 l.length]? with
  | none => (0xFF, s)
  | some lane => (lane + (if port = 2 ∨ port = 3 then 128 else 0), s)

/-- A remap word (R486). -/
def remapBytes (port retire : Nat) : Bytes :=
  let b := bytes [0xE7, port, retire]
  b ++ le 1 (Crypto.crc8 b)

/-- What a partner's word says: its retired lane, 127 for none, and its offer of the two-lane mode; none for a word that is not
valid (R486, R487). -/
def readRemap (w : Nat × Nat × Nat × Nat) : Option (Nat × Bool) :=
  let b := bytes [w.1, w.2.1, w.2.2.1]
  if w.1 = 0xE7 ∧ w.2.2.2 = Crypto.crc8 b then some (w.2.2.1 % 128, w.2.2.1 / 128 % 2 == 1) else none

/-- REMAP_WORD: remap words go out for 1 ms before a training attempt, and what comes back settles the lane map (R486). -/
def execRemapWord (port : Nat) (partner : Option (Nat × Nat × Nat × Nat)) (s : State) : Out :=
  if port > 5 ∨ (s.link port).up then .next s
  else
    let (r, s) := s.retireByte port
    let s := s.out (.remap port (remapBytes port r))
    .next (s.onLink port (fun x => { x with partner := partner.bind readRemap }))

/-- Lanes retired at either end (R486). -/
def Link.retiredSet (x : Link) : List Nat :=
  match x.partner with
  | some (l, _) => if l = 127 then x.retired else addOnce l x.retired
  | none => x.retired

/-- The one retired lane runs on the spare pair (R486). -/
def Link.remaps (x : Link) (port : Nat) : Bool :=
  x.partner.isSome && (match x.retiredSet with | [l] => l != spareLane port | _ => false)

/-- The widest width that the lane map allows, 0 where the link stays down (R487); a retired spare pair alone takes no lane. -/
def Link.limit (x : Link) (port : Nat) : Nat :=
  let lost := x.retiredSet.filter (· ≠ spareLane port)
  if lost.isEmpty || x.remaps port then fullWidth port
  else if port ≤ 1 then
    let left := 8 - lost.length
    if 4 ≤ left then 4 else if 2 ≤ left then 2 else left
  else if port ≤ 3 then
    let offered := match x.partner with | some (_, two) => two | none => false
    let low := lost.all (fun l => 2 ≤ l)
    let high := lost.all (fun l => l < 2)
    if offered && (low || high) then 2 else 0
  else 0

/-- Widths that a port can train at. -/
def widthOf (port w : Nat) : Nat :=
  if port ≤ 1 then (if 8 ≤ w then 8 else if 4 ≤ w then 4 else if 2 ≤ w then 2 else w)
  else if port ≤ 3 then (if 4 ≤ w then 4 else if 2 ≤ w then 2 else 0)
  else w

/-- LINK_TRAINED: the link comes up at the width reached, at most what its lane map allows; a reduced width and the use of the
spare pair are reported (R393, R405, R467, R486, R487). -/
def execLinkTrained (port width : Nat) (s : State) : Out :=
  let x := s.link port
  let w := widthOf port (min width (x.limit port))
  if port > 5 || x.up || w == 0 || !s.bru.ended.contains 2 then .next s
  else
    let s := s.setLink port { x with up := true, width := w, remap := x.remaps port, lldpAt := none }
    let s := if port = 2 ∨ port = 3 then s.onSport (port - 2) (fun p => { p with fecLock := true }) else s
    let s := if w < fullWidth port then s.raise 12 2 5 6 255 (locPort port 0) w else s
    let s := if x.remaps port then s.raise 12 3 5 5 255 (locPort port 0) w else s
    let all := (List.range 6).all (fun i => (s.link i).up)
    .next (if all then { s with bru := { s.bru with ended := addOnce 3 s.bru.ended } } else s)

/-- A link leaves service. -/
def State.dropLink (s : State) (port : Nat) : State :=
  let s := s.onLink port (fun x => { x with up := false, width := 0, remap := false, partner := none, lldpAt := none })
  if port = 2 ∨ port = 3 then s.onSport (port - 2) (fun p => { p with fecLock := false, stat := setBit p.stat 0 }) else s

/-- LINK_DOWN (R336, R467). -/
def execLinkDown (port : Nat) (s : State) : Out :=
  if port > 5 || !(s.link port).up then .next s
  else .next ((s.dropLink port).raise 12 1 5 0 255 (locPort port 0) 0)

/-- LANE_LOCK_LOSS: four losses of lock in 1 s retire the lane, and the port trains again without it (R476, R488). -/
def execLaneLockLoss (port lane : Nat) (s : State) : Out :=
  let x := s.link port
  if port > 5 || spareLane port < lane || x.retired.contains lane then .next s
  else
    let l := lastN 4 (((Sp.get [] x.losses lane).filter (fun t => decide (s.now < t + secTicks))) ++ [s.now])
    if l.length < 4 then .next (s.setLink port { x with losses := Sp.set [] x.losses lane l })
    else
      let s := s.setLink port { x with losses := Sp.set [] x.losses lane [], retired := x.retired ++ [lane] }
      let s := if x.up then s.dropLink port else s
      .next (s.raise 12 4 5 6 255 (locPort port lane) 0)

end Sys2Proof.Machine
end

