-- ==== Sys2Proof/Machine/Ddr.lean ====
section
/-!
DEFINITION. The cold tier's channels in service: write acknowledgement (R280), sparing (R277 to R279), the patrol scrubber (R278), ZQ
calibration, self-refresh (R358, R455) and the owner register (R289).
-/
namespace Sys2Proof.Machine

/-- The oldest write of a channel has been issued to the devices, and its harvest is acknowledged (R113, R280). -/
def State.ackWrite (s : State) (c : Nat) : State :=
  match (s.dchan c).writes with
  | [] => s
  | (n, op) :: t =>
    let s := s.onDchan c (fun d => { d with writes := t })
    match s.cellOwner n, (s.cell n).op op with
    | some p, some o => (s.onCell n (fun x => x.setOp { o with acked := true })).progress p
    | _, _ => s

/-- DDR_WRITE_ACK (R113, R280). -/
def execDdrWriteAck (c : Nat) (s : State) : Out := .next (s.ackWrite c)

/-- The channel of the cold tier in which a log ring's next entry lies (R282). -/
def Ring.headChan (r : Ring) : Nat := coldChan (r.first + r.head / 2048 % max 1 r.pages)

/-- Before self-refresh a channel completes every write it has queued: harvests, and entries of the input logs (R280). -/
def State.completeWrites (s : State) (c : Nat) : State :=
  let s := (s.dchan c).writes.foldl (fun s _ => s.ackWrite c) s
  (range2 1 16).foldl (fun s f => (s.fn f).inch.foldl (fun s e =>
    e.2.writing.foldl (fun s _ => if ((s.fn f).in_ e.1).ring.headChan = c then s.ackEntry f e.1 else s) s) s) s

/-- DEVICE_FAILED (R279). -/
def execDeviceFailed (c dev : Nat) (s : State) : Out := .next (if c < 8 then s.failDevice c dev else s)

/-- SPARE_COPY_COMPLETE: the spare replaces the failed device (R279). -/
def execSpareCopyComplete (c : Nat) (s : State) : Out :=
  let d := s.dchan c
  match d.copyDev with
  | none => .next s
  | some dev =>
    let sp : SpareState := if d.sp == .copying then .spared else d.sp
    .next ((s.setDchan c { d with sp := sp, failed := dev, copyDev := none }).ddrDevice c 2 5 dev)

/-- DDR_PATROL_READ: one codeword of a page of the channel is read, with the devices found wrong in it besides those that are wrong
already; a corrected one is written back, and one that fails correction is reported (R277, R278). -/
def execDdrPatrolRead (c page cw : Nat) (devs : List Nat) (s : State) : Out :=
  let d := s.dchan c
  if 7 < c ∨ 2 ^ 18 ≤ page ∨ 4096 ≤ cw ∨ d.oos ∨ d.selfRef ∨ !d.trained then .next s
  else
    let gp := 2 ^ 18 * c + page
    let at_ := coldAddr gp / 32 + cw
    let s := devs.foldl (fun s dev => s.upset (.cold at_ dev)) s
    match d.outcome (Sp.get 0 s.mem.ddrErr at_) with
    | none => .next (s.setDchan c { d with run := (31, 0) })
    | some (true, dev) => .next ((s.setMem (fun m => { m with ddrErr := Sp.del m.ddrErr at_ })).ddrCorrected c gp dev)
    | some (false, dev) => .next (s.ddrUncorrectable gp dev none)

/-- ZQ_CALIBRATION: every 128 ms while the channel is out of self-refresh. -/
def execZqCalibration (c : Nat) (s : State) : Out :=
  let d := s.dchan c
  let due := match d.zq with | none => true | some t => decide (t + 128 * msTicks ≤ s.now)
  .next (if c < 8 && due && d.trained && !d.selfRef && !d.oos then s.setDchan c { d with zq := some s.now } else s)

/-- Every partition of a tenant is in P3, and it has no open video context and no stream entry (R358). -/
def State.tenantAsleep (s : State) (t : Nat) : Bool :=
  let mine (p : Nat) : Bool := (s.part p).present && (s.part p).tenant == t
  (List.range 16).all (fun p => !mine p || (s.part p).pw.st == .p3)
    && (List.range 32).all (fun i => match s.vctx (i / 8) (i % 8) with | some v => !mine v.part | none => true)
    && (List.range 32).all (fun i => match s.stream i with | some e => !mine e.part | none => true)

/-- SELF_REFRESH_CHANGE: the channel enters self-refresh while its tenant sleeps, and leaves it otherwise; a Dome access keeps it
awake for 1 ms (R280, R358, R455). -/
def execSelfRefreshChange (c : Nat) (s : State) : Out :=
  let d := s.dchan c
  let asleep := match d.owner with | some t => s.tenantAsleep t | none => false
  let held := match d.woke with | some t => decide (s.now < t + msTicks) | none => false
  if c < 8 ∧ s.bru.depth ≠ 2 then
    let enter := asleep && !held
    let s := if enter && !d.selfRef then s.completeWrites c else s
    .next (s.onDchan c (fun d => { d with selfRef := enter }))
  else .next s

/-- A tenant still holds keys: its own, or one of a context (R272, R275). -/
def State.holdsKeys (s : State) (t : Nat) : Bool := (s.tenant t).present && (s.tenant t).key.isSome

/-- DDR_OWN_WRITE: a write to DDR_OWN, discarded while the current owner, or one before it, still holds keys (R272, R289). -/
def execDdrOwnWrite (c : Nat) (v : Word) (s : State) : Out :=
  let d := s.dchan c
  let blocked (o : Option Nat) : Bool := match o with | some t => s.holdsKeys t | none => false
  .next (if 7 < c || blocked d.owner || blocked d.prev then s
    else s.setDchan c { d with owner := if bit v 3 then some (fld v 0 3) else none, prev := none })

end Sys2Proof.Machine
end

