-- ==== Sys2Proof/Machine/Dome.lean ====
section
/-!
DEFINITION. The Dome cluster (R450 to R456) and its interrupt controller, the DIC (R457 to R463): apertures, core states, sources,
claim and completion.
-/
namespace Sys2Proof.Machine

-- Refused accesses (R453 to R456).

/-- DOME_ACC: a refused access is recorded; a read returns 0 (R453, R456). -/
def State.domeAcc (s : State) (core addr : Nat) (write : Bool) : State :=
  { s with
    rdata := if write then s.rdata else 0
    dome := { s.dome with accAddr := addr % 2 ^ 64, accStat := word (core % 8 + 8 * b2n write + 16) } }

def panAperture : Nat := 0x200000000
def coldAperture : Nat := 0x1000000000

/-- The Pan aperture refuses an access to a page (R454). -/
def State.panRefused (s : State) (page : Nat) (write : Bool) : Bool :=
  let e := s.pte page
  let k := Pte.kind e
  let released := match s.cellOwner (pageCell page) with | some p => (s.part p).st == .released | none => false
  !s.blockRuns (blockOf (pageCell page)) || (released && k != Pte.plate)
    || (write && (Pte.state e != Pte.live || !(k == Pte.plate || k == Pte.weight || k == Pte.data)))

/-- PAN_APERTURE_ACCESS: an aligned 8-byte load or store by a core through the Pan aperture (R137, R454); it waits while its row is being
copied (R139). -/
def execPanApertureAccess (core addr : Nat) (store : Option DWord) (s : State) : Out :=
  let off := addr - panAperture
  let page := off / pageBytes
  if core > 7 ∨ addr < panAperture ∨ 2 ^ 34 ≤ off then .next s
  else if off % 8 ≠ 0 ∨ s.panRefused page store.isSome then .next (s.domeAcc core addr store.isSome)
  else if s.rowBusy off 8 then .next s
  else match store with
  | some v => .next ((s.panWrite off (le 8 v.toNat)).markDirty page)
  | none =>
    match s.panFetch off 8 with
    | (some b, s) => .next { s with rdata := leNat b }
    | (none, s) => .next (s.domeAcc core addr false)

/-- The key with which the cold-tier aperture reaches a page: the module key, or the tenant key in a SHARED range (R274, R455). -/
def State.apertureKey (s : State) (page : Nat) : Option Nat :=
  let d := s.dchan (coldChan page)
  if d.oos then none
  else if isSystem page then s.watch.modKey
  else match d.owner with
  | some t => if (s.tenant t).shares page then (s.tenant t).key else none
  | none => none

/-- COLD_APERTURE_ACCESS: an aligned 8-byte load or store by a core through the cold-tier aperture; it wakes the channel. A store is a
read-modify-write of its 64-byte data unit. A load that fails correction delivers no data, a free value, and such a store is not
performed (R277, R278, R455, log 3, log 157). -/
def execColdApertureAccess (core addr : Nat) (store : Option DWord) (s : State) : Out :=
  let off := addr - coldAperture
  let page := off / pageBytes
  if core > 7 ∨ addr < coldAperture ∨ 2 ^ 38 ≤ off then .next s
  else match s.apertureKey page with
  | none => .next (s.domeAcc core addr store.isSome)
  | some k =>
    if off % 8 ≠ 0 then .next (s.domeAcc core addr store.isSome)
    else
      let s := s.onDchan (coldChan page) (fun d => { d with selfRef := false, woke := some s.now })
      match store with
      | some v =>
        match s.coldJudge (off / 64 * 64) 64 none with
        | (false, s) => .next s
        | (true, s) => .next (s.coldStore k off (le 8 v.toNat))
      | none =>
        match s.coldJudge off 8 none with
        | (true, s) => .next { s with rdata := leNat (s.coldRead (some k) off 8) }
        | (false, s) =>
          let (v, s) := s.draw
          .next { s with rdata := v % 2 ^ 64 }

-- The DIC (R457 to R463).

/-- The type of a source: level, not edge (R457). -/
def dicIsLevel (src : Nat) : Bool :=
  (4 ≤ src && src ≤ 6) || (8 ≤ src && src ≤ 101) || src == 134 || src == 135 || (144 ≤ src && src ≤ 161)

/-- The condition of a level source holds (R457). -/
def State.dicLevel (s : State) (src : Nat) : Bool :=
  if src = 4 then s.clk.stat != 0
  else if src = 5 then s.power.stat != 0
  else if src = 6 then s.dome.wtMsg
  else if src = 8 then bit s.dome.accStat 4
  else if 9 ≤ src ∧ src ≤ 24 then (s.part (src - 9)).st == .stopped
  else if 25 ≤ src ∧ src ≤ 40 then
    let x := s.part (src - 25)
    bit x.ptmStat 0 || bit x.ptmStat 3 || x.err != 0 || x.ctlIgn || x.bwIgn
  else if 41 ≤ src ∧ src ≤ 56 then let x := s.part (src - 41); bit x.ptmStat 2 || bit x.ptmStat 4
  else if 57 ≤ src ∧ src ≤ 72 then let x := (s.part (src - 57)).pw; x.ev != 0 || x.doneP3
  else if 73 ≤ src ∧ src ≤ 89 then let x := s.fn (src - 73); !x.cmds.isEmpty || !x.mirrors.isEmpty
  else if 90 ≤ src ∧ src ≤ 97 then (s.dchan (src - 90)).stat != 0
  else if 98 ≤ src ∧ src ≤ 101 then (s.vpair (src - 98)).stat != 0
  else if src = 134 ∨ src = 135 then (s.sport (src - 134)).stat != 0
  else if src = 144 then s.cells.any (fun e => e.2.stat != 0)
  else if src = 145 then s.pans.any (fun e => e.2.stat != 0)
  else if 146 ≤ src ∧ src ≤ 153 then let t := (s.core (src - 146)).timer; t != 0 && decide (t ≤ s.now)
  else if 154 ≤ src ∧ src ≤ 161 then (s.core (src - 154)).soft
  else false

/-- A core holds the source's claim. -/
def State.dicClaimed (s : State) (src : Nat) : Bool := (List.range 8).any (fun c => (s.core c).claim == some src)

/-- The source is pending (R457, R460). -/
def State.dicPending (s : State) (src : Nat) : Bool :=
  if dicIsLevel src then s.dicLevel src && !s.dicClaimed src else s.dome.pend.contains src

/-- The source may be delivered to a core: pending, enabled, targeted at it and not claimed; a failed core's mask bit is ignored
(R458, R459, R461). -/
def State.dicReady (s : State) (core src : Nat) : Bool :=
  s.dome.enable.contains src && (Sp.get 0 s.dome.target src).testBit core && (s.core core).st != .failed && s.dicPending src
    && !s.dicClaimed src

/-- The core's interrupt line (R458). -/
def State.dicLine (s : State) (core : Nat) : Bool :=
  (s.core core).claim.isNone && (range2 1 255).any (fun src => s.dicReady core src)

/-- A read of DIC_CLAIM: the source claimed, and the state (R459). -/
def State.claim (s : State) (core : Nat) : Nat × State :=
  match (s.core core).claim with
  | some src => (src, s)
  | none =>
    match (range2 1 255).find? (fun src => s.dicReady core src) with
    | some src =>
      (src, { s.onCore core (fun c => { c with claim := some src }) with
        dome := { (s.onCore core (fun c => { c with claim := some src })).dome with pend := s.dome.pend.filter (· ≠ src) } })
    | none => (0, { s with dome := { s.dome with spur := sat32 (s.dome.spur + 1) } })

/-- DIC_CLAIM: a read in the window of a core acts for that core (R459, R463). -/
def execDicClaim (core : Nat) (s : State) : Out :=
  if core > 7 then .next s
  else let (v, s) := s.claim core; .next { s with rdata := v }

/-- The claim that a core holds ends; an edge source whose event occurred meanwhile is pending again (R460). -/
def State.complete (s : State) (core : Nat) : State :=
  match (s.core core).claim with
  | none => s
  | some src =>
    let s := s.onCore core (fun c => { c with claim := none })
    if s.dome.refire.contains src then
      { s with dome := { s.dome with refire := s.dome.refire.filter (· ≠ src), pend := addOnce src s.dome.pend } }
    else s

/-- DIC_COMPLETE (R460). -/
def execDicComplete (core : Nat) (v : Word) (s : State) : Out :=
  if core > 7 then .next s
  else if (s.core core).claim = some (fld v 0 8) then .next (s.complete core)
  else .next (s.onCore core (fun c => { c with compIgn := true }))

/-- DIC_SOFT_WRITE: SOFT of a core, and DONE_P3 of every partition taken (R457, R463). -/
def execDicSoftWrite (core : Nat) (v : Word) (s : State) : Out :=
  if core > 7 then .next s
  else
    let s := s.onCore core (fun c => { c with soft := bit v 0 })
    .next (if bit v 1 then (List.range 16).foldl (fun s p => s.onPart p (fun x => { x with pw := { x.pw with doneP3 := false } })) s
      else s)

/-- DIC_TIMER_EXPIRY: PTM_NOW has reached DIC_TIMER. The source is a level one, which its condition alone makes pending, so
nothing else changes (R457). -/
def execDicTimerExpiry (_core : Nat) (s : State) : Out := .next s

-- Cores (R451, R461).

/-- A partition whose step control a failed core held is replayed: its running step is released again from its decision (R451). -/
def State.replayFor (s : State) (p : Nat) : State :=
  let x := s.part p
  match x.st, x.decision with
  | .released, some d => (s.abort p).releaseDecision p d
  | _, _ => s

/-- A core fails: its claim is completed, DOME_CORE is raised, and the partitions whose procedures it held are replayed; which
these are is the firmware's spread, a free value (R451, R457, R461, R467, log 17). -/
def State.failCore (s : State) (core cause reason : Nat) : State :=
  let (v, s) := s.draw
  let held := (List.range 16).filter (fun p => (s.part p).present && v.testBit p)
  let mask := held.foldl (fun a p => a + 2 ^ p) 0
  let s := ((s.complete core).onCore core (fun c => { c with st := .failed, cause := cause })).edge 2
  let s := s.raise 22 reason 8 5 255 core mask
  let few := decide (s.coresRunning < 6) && !(List.range 8).any (fun c => (s.core c).st == .spare)
  let s := if few then s.raise 22 4 8 6 255 core mask else s
  held.foldl State.replayFor s

/-- DOME_START: a spare core starts at DOME_BOOT (R451, R456). -/
def execDomeStart (v : Word) (s : State) : Out :=
  let c := fld v 0 3
  if !bit v 3 then .next s
  else if (s.core c).st == .spare then
    .next (s.onCore c (fun x => { x with st := .run, entry := s.dome.boot, kick := s.now }))
  else .next { s with dome := { s.dome with startIgn := true } }

/-- DOME_FAIL (R451, R456). -/
def execDomeFail (v : Word) (s : State) : Out :=
  let c := fld v 0 3
  .next (if bit v 3 && (s.core c).st == .run then s.failCore c 3 3 else s)

/-- DOME_KICK: the 10 ms watchdog of the writing core starts again (R451, R456). -/
def execDomeKick (core : Nat) (s : State) : Out :=
  .next (if core < 8 then s.onCore core (fun c => { c with kick := s.now }) else s)

/-- DOME_WATCHDOG_EXPIRY: no kick for 10 ms (R451). -/
def execDomeWatchdogExpiry (core : Nat) (s : State) : Out :=
  let c := s.core core
  .next (if core < 8 && c.st == .run && decide (c.kick + 10 * msTicks ≤ s.now) then s.failCore core 2 2 else s)

/-- DOME_CACHE_UE (R451). -/
def execDomeCacheUe (core : Nat) (s : State) : Out :=
  .next (if core < 8 && (s.core core).st == .run then s.failCore core 2 2 else s)

/-- DOME_MEMORY_UE: an uncorrectable error in Dome memory starts a compute reset with SOURCE 4 (R452, R467). -/
def execDomeMemoryUe (s : State) : Out :=
  let s := s.raise 1 4 0 4 255 0 0
  .next (if s.mayReset 2 ∧ !s.fw.forfort then s.computeReset 4 else s)

end Sys2Proof.Machine
end

