-- ==== Sys2Proof/Machine/Clocks.lean ====
section
/-!
DEFINITION. The clock unit (R377 to R386): the start of the tick, loss and return of REFCLK, the trim of the IRO, and the
frequency-measuring counter.
-/
namespace Sys2Proof.Machine

/-- Updates the clock unit. -/
def State.onClk (s : State) (f : Clock → Clock) : State := { s with clk := f s.clk }

/-- OSC_WAIT_END: phase 1 of bring-up ends, and the tick starts from REFCLK or from the IRO (R379, R393). -/
def execOscWaitEnd (refOk : Bool) (s : State) : Out :=
  if s.bru.depth ≠ 5 ∨ s.bru.ended.contains 1 ∨ s.bru.halted ∨ s.board.st ≠ .on ∨ s.board.p4 ∨ s.board.resetLow ∨ s.board.removed
    then .next s
  else
    let s := s.onClk (fun c => { c with
      running := true, refOk := refOk, onIro := !refOk, stat := if refOk then c.stat else setBit c.stat 3 })
    .next { s with bru := { s.bru with ended := addOnce 1 s.bru.ended, trigger := s.now } }

/-- The selected trim source is lost: the lock clears and the last trim is held (R382). -/
def Clock.loseTrim (c : Clock) : Clock := { c with trimLock := false, stat := setBit c.stat 5 }

/-- REFCLK_LOST: the tick moves to the IRO (R380). -/
def execRefclkLost (s : State) : Out :=
  let c := s.clk
  if !c.running then .next s
  else
    let c' := { c with refOk := false }
    let c' := if c.trimSrc = 0 ∧ c.refOk then c'.loseTrim else c'
    if c.onIro then .next { s with clk := c' }
    else .next ({ s with clk := { c' with onIro := true, stat := setBit c'.stat 3 } }.raise 16 0 0 0 255 0 0)

/-- REFCLK_RETURN: REFCLK has been good for 10 ms, and the tick returns to it (R381). -/
def execRefclkReturn (s : State) : Out :=
  .next (if s.clk.running && s.clk.onIro then
    s.onClk (fun c => { c with onIro := false, refOk := true, stat := setBit c.stat 4 }) else s)

/-- TRIM_LOST (R382). -/
def execTrimLost (s : State) : Out :=
  .next (if s.clk.running && s.clk.trimSrc != 3 then s.onClk Clock.loseTrim else s)

/-- The trim source gives a clock: REFCLK, or a stream port with RS-FEC alignment lock (R382). -/
def State.trimSource (s : State) : Bool :=
  match s.clk.trimSrc with
  | 0 => s.clk.refOk
  | 1 => (s.sport 0).fecLock
  | 2 => (s.sport 1).fecLock
  | _ => false

/-- TRIM_LOCK: the IRO trim locks to its source with a correction in 0.01 ppm (R382, R386). -/
def execTrimLock (correction : Nat) (s : State) : Out :=
  .next (if s.clk.running && s.trimSource then s.onClk (fun c => { c with trimLock := true, trim := correction % 65536 }) else s)

/-- TRIM_SRC is written: another source is not locked yet, and the trim is held until it is (R382). -/
def Clock.setTrim (c : Clock) (src : Nat) : Clock :=
  { c with trimSrc := src, trimLock := if src = c.trimSrc then c.trimLock else false }

/-- CLK_CTL_WRITE, by the Watchtower (R382, R386). -/
def execClkCtlWrite (v : Word) (s : State) : Out := .next (s.onClk (fun c => c.setTrim (fld v 0 2)))

/-- START: a write of CLK_FMC_CTL (R385). -/
def execStart (v : Word) (s : State) : Out :=
  let c := s.clk
  let bad := decide (20 ≤ fld c.fmcSel 0 6) || decide (20 ≤ fld c.fmcSel 6 6)
  .next (if !bit v 0 || bit c.fmcStat 0 then s
    else if bad then { s with clk := { c with fmcStat := setBit c.fmcStat 4 } }
    else { s with clk := { c with fmcStat := 1 } })

/-- MEASUREMENT_DONE: the window has ended, or a clock showed no edge for 10 µs; what CNT then holds is a free value (R385, R386,
log 3). -/
def execMeasurementDone (r : FmcResult) (s : State) : Out :=
  if !bit s.clk.fmcStat 0 then .next s
  else match r with
  | .count edges =>
    .next (s.onClk (fun c => { c with fmcCnt := sat32 edges, fmcStat := if edges ≤ 0xFFFFFFFF then 2 else 6 }))
  | .noClock =>
    let (v, s) := s.draw
    .next (s.onClk (fun c => { c with fmcCnt := v % 2 ^ 32, fmcStat := 10 }))

end Sys2Proof.Machine
end

