-- ==== Sys2Proof/Machine/BringUp.lean ====
section
/-!
DEFINITION. Bring-up (R393 to R407): the ROM phase and the licence check (R396, R410), DDR4 training and test (R402, R403),
firmware selection (R447), Dome start (R399, R451), microcode and the cell check (R400, R401), and READY (R404).
-/
namespace Sys2Proof.Machine

-- Licences (R408 to R410).

namespace Lic

def id (b : Bytes) : Nat := u64 b 0x10
def blocks (b : Bytes) : Nat := u8 b 0x18
def parts (b : Bytes) : Nat := u8 b 0x19
def video (b : Bytes) : Bool := (u8 b 0x1A).testBit 0
def reflex (b : Bytes) : Bool := (u8 b 0x1A).testBit 1

def formatOk (b : Bytes) : Bool :=
  b.length == 128 && u32 b 0 == 0x45544C49 && u16 b 4 == 1 && u16 b 6 == 0xE700 && id b != 0 && decide (1 ≤ blocks b)
    && decide (blocks b ≤ 16) && decide (1 ≤ parts b) && decide (parts b ≤ 16) && decide (u8 b 0x1A < 4) && allZero b 0x1B 5
    && allZero b 0x30 16

/-- LIC_FORMAT, LIC_SIGNATURE and LIC_SERIAL (R409). -/
def refusal (key : Bytes) (serial : Nat) (b : Bytes) : Option Nat :=
  ([(!formatOk b, 0x41), (!Crypto.edVerify key (b.take 0x40) (slice b 0x40 64), 0x42), (u64 b 8 != serial, 0x43)].find? (·.1)).map (·.2)

end Lic

-- Phases (R393).

/-- A phase may start: those that it comes after have ended, it has not, and bring-up goes on (R353, R393). -/
def State.phaseReady (s : State) (n : Nat) (after : List Nat) : Bool :=
  after.all (fun k => s.bru.ended.contains k) && !s.bru.ended.contains n && !s.bru.halted && !s.bru.failed && !s.board.removed
    && s.board.st == .on && !s.board.p4 && !s.board.tripped

/-- A phase ends; BRU_STAT changes (R407, R457). -/
def State.endPhase (s : State) (n : Nat) : State :=
  let s := { s with bru := { s.bru with ended := addOnce n s.bru.ended } }
  if n < 6 then s else s.edge 7

/-- Bring-up ends without READY (R399, R403). -/
def State.failBringUp (s : State) : State :=
  { s with bru := { s.bru with failed := true, depth := 0 } }.edge 7

/-- BRU_TIME: milliseconds from the trigger, the start-up wait included; how a part of a millisecond counts is not stated
(R378, R407, log 3). -/
def State.bruTime (s : State) : Nat :=
  let wait := if s.bru.kind = 1 then 50000 * 2 ^ s.clk.oscWait else 0
  let t := s.now - s.bru.trigger + wait
  sat32 (t / msTicks + (if t % msTicks ≠ 0 ∧ Config.roundUp t msTicks then 1 else 0))

/-- ROM_PHASE: phase 2; the fuses and the persistent store are read, the spare maps are built, and the stored licence is checked
(R393, R396, R410). -/
def execRomPhase (s : State) : Out :=
  if !s.phaseReady 2 [1] then .next s
  else
    let w := s.watch
    let valid := match w.licence with | some b => (Lic.refusal w.licKey w.serial b).isNone | none => false
    let s := s.buildMaps.reportNoSpare
    .next ({ s with watch := { s.watch with licValid := valid } }.endPhase 2)

/-- A DDR4 channel goes out of service (R402, R403, R467). -/
def State.ddrOut (s : State) (c dev : Nat) : State := (s.onDchan c (fun d => { d with oos := true })).ddrDevice c 4 6 dev

/-- DDR_TRAINING: phase 4; a channel that fails three attempts is out of service (R393, R402). -/
def execDdrTraining (failed : List Nat) (s : State) : Out :=
  if !s.phaseReady 4 [2] then .next s
  else .next (((List.range 8).foldl (fun s c =>
    if failed.contains c then s.ddrOut c 0 else s.onDchan c (fun d => { d with trained := true })) s).endPhase 4)

-- Firmware selection (R440, R446, R447).

/-- A slot that is TRIAL at a start fails, and its fallback takes the PREVIOUS slot, or Forfort (false). The warm reset that R446
asks for is absorbed by the bring-up (R405). -/
def State.trialFails (s : State) : Bool × State :=
  match s.fw.slotIn .trial with
  | none => (true, s)
  | some i =>
    let n := s.fw.fbCount + 1
    let s := s.onFw (fun w => { w.setSlot i { w.slot i with st := .failed } with fbCount := n })
    let s := s.raise 23 2 0 8 255 0 n
    let o := 1 - i
    if n < 3 ∧ (s.fw.slot o).st = .previous then (true, s.onFw (fun w => w.setSlot o { w.slot o with st := .current }))
    else (false, s)

/-- The slot that runs, by the last rows of R447. -/
def State.chooseSlot (s : State) : Option Nat × State :=
  let good (i : Nat) : Bool := FwImage.signed s.watch.fwKey (s.fw.slot i).image
  let prev (s : State) : Option Nat × State :=
    match s.fw.slotIn .previous with
    | some i => if good i then (some i, s.onFw (fun w => w.setSlot i { w.slot i with st := .current })) else (none, s)
    | none => (none, s)
  if 3 ≤ s.fw.fbCount then (none, s)
  else match s.fw.slotIn .current with
  | none => prev s
  | some i =>
    if good i then (some i, s)
    else
      let n := s.fw.fbCount + 1
      let s := s.onFw (fun w => { w.setSlot i { w.slot i with st := .failed } with fbCount := n })
      prev (s.raise 23 3 0 8 255 0 n)

/-- Bring-up stops, and Forfort runs (R399, R449). -/
def State.forfortRuns (s : State) : State :=
  { s with fw := { s.fw with forfort := true }, bru := { s.bru with depth := 0 } }

/-- FIRMWARE_SELECTION: phase 5 (R399, R447). -/
def execFirmwareSelection (s : State) : Out :=
  if !s.phaseReady 5 [2] || s.fw.forfort then .next s
  else if s.clk.romRcv then .next s.forfortRuns
  else match s.trialFails with
  | (false, s) => .next s.forfortRuns
  | (true, s) =>
    match s.chooseSlot with
    | (none, s) => .next s.forfortRuns
    | (some i, s) =>
      let s := s.onFw (fun w => w.load i)
      .next ({ s with bru := { s.bru with slot := i } }.endPhase 5)

-- Dome start (R399, R445, R448, R451, R462).

/-- Core states after the self-test: the six lowest-numbered that are not FAILED and pass go to RUN, the others to SPARE; a
core that fails is recorded and reported (R451, R467). -/
def State.testCores (s : State) (failed : List Nat) : State :=
  let bad := (List.range 8).filter (fun c => (s.core c).st != .failed && failed.contains c)
  let good := (List.range 8).filter (fun c => (s.core c).st != .failed && !failed.contains c)
  let s := bad.foldl (fun s c => (s.setCore c { st := .failed, cause := 1 }).raise 22 1 8 5 255 c 0) s
  good.zipIdx.foldl (fun s e => s.setCore e.1 (if e.2 < 6 then { st := .run, kick := s.now } else {})) s

/-- Commands that a compute reset has caught in progress are answered SUPERSEDED, but for the FW_ACTIVATE that caused it (R390,
R443). -/
def State.supersedeCompute (s : State) : State :=
  let s := (List.range 17).foldl (fun s f =>
    let x := s.fn f
    let keep (c : Cmd) : Bool := f == 0 && s.fw.activate == some c.seq
    (s.supersede f (x.open_.filter (fun c => !keep c)))) s
  let s := (List.range 16).foldl (fun s p => s.onPart p (fun x => { x with
    ctxs := x.ctxs.map (fun e => (e.1, { e.2 with closeCmd := none })), snapshot := none })) s
  { s with pair := { s.pair with resyncCmd := none, snapCmd := none, snapLeft := 0, snapSent := 0 } }

/-- The firmware starts: targets of the DIC, settings, and the confirmation window (R445, R448, R462). -/
def State.startFirmware (s : State) : State :=
  let low := ((List.range 8).find? (fun c => (s.core c).st == .run)).getD 0
  let s := { s with dome := { s.dome with
    enable := [], pend := [], refire := [], target := (range2 1 255).foldl (fun l i => Sp.set 0 l i (2 ^ low)) [] } }
  s.onFw (fun w => { w.startSettings with window := match w.window with | some t => some t | none => some (s.now + 60 * secTicks) })

/-- DOME_SELF_TEST: phase 6 (R399, R451). -/
def execDomeSelfTest (failed : List Nat) (s : State) : Out :=
  if !s.phaseReady 6 [5] then .next s
  else
    let s := s.testCores failed
    if s.coresRunning < 6 then .next (s.endPhase 6).failBringUp
    else
      let s := s.startFirmware
      let s := if s.bru.kind = 3 then s.supersedeCompute else s
      let s := (List.range 16).foldl (fun s b => s.onBlock b (fun k => { k with on := !k.oos, point := 6 })) s
      .next (s.endPhase 6)

-- Cells (R397, R400, R401).

/-- Cells failed in bring-up (R401, R407). -/
def State.failInBringUp (s : State) (n reason : Nat) : State :=
  let s := s.failCell n reason true
  { s with bru := { s.bru with newCells := s.bru.newCells + 1 } }

/-- MICROCODE_BROADCAST: phase 7; a cell whose second check fails is failed (R400). -/
def execMicrocodeBroadcast (failed : List Nat) (s : State) : Out :=
  if !s.phaseReady 7 [6] then .next s
  else
    let s := (failed.filter (· < 1024)).foldl (fun s n => s.failInBringUp n 5) s
    let s := (List.range 1024).foldl (fun s n => s.onCell n (fun c => { c with ucode := true })) s
    .next (s.endPhase 7)

/-- A Pan row that fails its test is replaced and recorded; a layer with no spare left fails its cell. Nothing is copied, and the
spec gives such a record no REASON: a free value (R139, R140, R401, log 3). -/
def State.failRow (s : State) (pan layer row : Nat) : State :=
  let used := Sp.get 0 (s.pan pan).spare layer
  let (v, s) := s.draw
  let s := s.replaceRow pan layer row (v % 256) (32 * pan + row / 16) (256 * (row % 16) + layer) true
  let s := s.onPan pan (fun x => { x with copying := x.copying.filter (· ≠ layer * 512 + row) })
  if 8 ≤ used then { s with bru := { s.bru with newCells := s.bru.newCells + 1 } }
  else { s with bru := { s.bru with newRows := sat16 (s.bru.newRows + 1) } }

/-- Blocks return from the bring-up point: on inside a partition that is not in P3, off elsewhere (R354, R358, R400). -/
def State.settleBlocks (s : State) : State :=
  (List.range 16).foldl (fun s b => match s.owner b with
    | some p => let w := (s.part p).pw
      s.onBlock b (fun k => { k with on := !k.oos && w.st != .p3, point := w.point })
    | none => s.onBlock b (fun k => { k with on := false, point := 0 })) s

/-- The end of a compute reset: the channels leave self-refresh, the apertures drain again, and recovery begins (R280, R388, R390,
R394). -/
def State.endCompute (s : State) : State :=
  let s := (List.range 8).foldl (fun s c => s.onDchan c (fun d => { d with selfRef := false })) s
  let s := { s with bru := { s.bru with depth := 0, isReady := true, time := s.bruTime } }
  let s := (List.range 34).foldl (fun s i =>
    let (h, f) := (i / 17, i % 17)
    let d0 := (s.hp h f).pos
    (s.onHp h f (HostPort.drain 513)).credit h f d0) s
  s.answerActivate

/-- CELL_CHECK: phase 8; cells and Pan rows that fail are failed and replaced before phase 10 (R401, R406). -/
def execCellCheck (failed : List Nat) (rows : List (Nat × Nat × Nat)) (s : State) : Out :=
  if !s.phaseReady 8 [7] then .next s
  else
    let s := (rows.filter (fun r => decide (r.1 < 4096) && decide (r.2.1 < 8) && decide (r.2.2 < 512))).foldl
      (fun s r => s.failRow r.1 r.2.1 r.2.2) s
    let s := (failed.filter (· < 1024)).foldl (fun s n => s.failInBringUp n 5) s
    let s := s.settleBlocks.endPhase 8
    .next (if s.bru.kind = 3 then s.endCompute else s)

-- The DDR4 test (R402, R403).

/-- Devices known to have failed before the test. -/
def DdrChan.known (d : DdrChan) : List Nat :=
  match d.sp with
  | .normal | .copying => []
  | .spared => [if d.failed = 31 then 18 else d.failed]
  | .exposed => if d.failed = 31 then [] else [d.failed]

/-- The test of one channel (R403). -/
def State.ddrTested (s : State) (c : Nat) (bad : List Nat) : State :=
  let d := s.dchan c
  let further := bad.eraseDups.filter (fun v => decide (v ≤ 18) && !d.known.contains v)
  let n := d.known.length + further.length
  let s := s.setDchan c { d with newFail := !bad.isEmpty }
  if !d.trained || d.oos || further.isEmpty then s
  else if 2 < n then s.ddrOut c (further.headD 0)
  else if n = 2 ∨ d.sp = .exposed then s.expose c (further.headD 0)
  else
    let dev := further.headD 0
    s.onDchan c (fun d => { d with sp := .spared, failed := if dev = 18 then 31 else dev })

/-- DDR_TEST: phase 9; with no channel left in service bring-up ends with FAILED (R402, R403). -/
def execDdrTest (failed : List (Nat × Nat)) (s : State) : Out :=
  if !s.phaseReady 9 [4, 6] then .next s
  else
    let (v, s) := s.draw
    let s := { s with bru := { s.bru with ddrOff := if s.bru.full then 0 else v % 256 } }
    let s := (List.range 8).foldl (fun s c => s.ddrTested c ((failed.filter (fun e => e.1 == c)).map (·.2))) s
    let s := s.endPhase 9
    .next (if (List.range 8).all (fun c => (s.dchan c).oos) then s.failBringUp else s)

-- READY (R404).

/-- READY: phase 10; a new module key is drawn and the module is ready (R280, R404). -/
def execReady (s : State) : Out :=
  if !s.phaseReady 10 [8, 9] then .next s
  else
    let (k, s) := s.newKey
    let s := { s with
      watch := { s.watch with modKey := some k }
      bru := { s.bru with isReady := true, depth := 0, time := s.bruTime } }
    .next (s.endPhase 10).answerActivate

end Sys2Proof.Machine
end

