-- ==== Sys2Proof/Machine/RegValues.lean ====
section
/-!
DEFINITION. The Dome's register map (R453) and the value that each register holds (R61, R130, R141, R159, R201, R269, R289,
R336, R374 to R376, R386, R407, R456, R463), with the registers of BAR0 (R293).
-/
namespace Sys2Proof.Machine

/-- The register windows of the Dome map (R453). -/
inductive Win where
  | cell (n : Nat) | pan (n : Nat) | ptm (p : Nat) | seq (p : Nat) | pt (c : Nat) | vid (k : Nat) | ddr (c : Nat)
  | stp (i : Nat) | pwr | clk | bru | pwrPart (p : Nat) | pwrQueue | dic | core
  deriving DecidableEq, Repr

/-- Regions of the Dome map: a register of a window, memory, ROM, the Watchtower mailbox, an aperture, or none (R453). -/
inductive Region where
  | reg (w : Win) (off : Nat) | rom | memory (off : Nat) | mailbox | aperture | none
  deriving DecidableEq, Repr

/-- A window array of the map. -/
def inArray (a base count size : Nat) (w : Nat → Win) : Option Region :=
  if base ≤ a ∧ a < base + count * size then some (.reg (w ((a - base) / size)) ((a - base) % size)) else Option.none

/-- The region of a Dome address (R453). -/
def region (a : Nat) : Region :=
  if a < 0x10000 then .rom
  else if 0x80000000 ≤ a ∧ a < 0x84000000 then .memory (a - 0x80000000)
  else if 0x100035000 ≤ a ∧ a < 0x100036000 then .mailbox
  else if (panAperture ≤ a ∧ a < panAperture + 2 ^ 34) ∨ (coldAperture ≤ a ∧ a < coldAperture + 2 ^ 38) then .aperture
  else
    let found := [inArray a 0x100000000 1024 0x40 .cell, inArray a 0x100010000 4096 0x20 .pan,
      inArray a 0x100030000 16 0x40 .ptm, inArray a 0x100030400 16 0x40 .seq, inArray a 0x100030800 8 0x20 .pt,
      inArray a 0x100030900 4 0x20 .vid, inArray a 0x100030980 8 0x20 .ddr, inArray a 0x100030A80 2 0x40 .stp,
      inArray a 0x100030B00 1 0x40 (fun _ => .pwr), inArray a 0x100030B40 1 0x40 (fun _ => .clk),
      inArray a 0x100030B80 1 0x40 (fun _ => .bru), inArray a 0x100030C00 16 0x40 .pwrPart,
      inArray a 0x100031000 1 0x80 (fun _ => .pwrQueue), inArray a 0x100032000 1 0x1000 (fun _ => .dic),
      inArray a 0x100034000 1 0x100 (fun _ => .core)]
    (found.findSome? id).getD .none

-- Values by window.

/-- CELL_ID, CELL_CEIL, CELL_RATE, CELL_STAT and the counters (R61). -/
def State.cellReg (s : State) (n off : Nat) : Nat :=
  let c := s.cell n
  let b := blockOf n
  let o := s.cellOwner n
  let t := s.target n
  let f := vfUnits (s.block b).point
  match off with
  | 0x00 => cellRow n + 32 * cellCol n + 2 ^ 10 * s.physCol n + 2 ^ 16 * b + 2 ^ 20 * (o.getD 0) + 2 ^ 24 * b2n o.isSome
  | 0x04 => c.fused + 2 ^ 8 * c.aged + 2 ^ 16 * c.effective
  | 0x08 => t + 2 ^ 8 * (s.block b).point + 2 ^ 12 * b2n (t != 0 && decide (t < f))
  | 0x0C => c.stat.toNat
  | 0x18 => c.ssWait
  | 0x1C => c.ssCe
  | _ => 0

/-- PAN_ID, PAN_STAT and the counters (R141). -/
def State.panReg (s : State) (n off : Nat) : Nat :=
  let x := s.pan n
  match off with
  | 0x00 => n + 2 ^ 12 * s.physCol (n / 4)
  | 0x04 => x.stat.toNat
  | 0x08 => x.ce
  | 0x0C => x.ue
  | 0x10 => (List.range 8).foldl (fun a l => a + Sp.get 0 x.spare l % 16 * 2 ^ (4 * l)) 0
  | 0x14 => x.wait
  | 0x18 => x.lastErr.toNat
  | _ => 0

/-- PTM_BAR (R130). -/
def Part.ptmBar (x : Part) : Nat :=
  let wait := x.barriers.filter (fun b => !b.done)
  wait.length + 2 ^ 4 * x.lastBid + 2 ^ 8 * (match wait with | b :: _ => b.bid | [] => 0)
    + 2 ^ 12 * b2n (x.barriers.any (fun b => b.done && b.stagger))

/-- The PTM window (R130). -/
def State.ptmReg (s : State) (p off : Nat) : Nat :=
  let x := s.part p
  match off with
  | 0x18 => x.ptmStat.toNat + 2 * b2n x.armed
  | 0x1C => x.miss
  | 0x20 => x.limWait
  | 0x24 => x.trk + 2 ^ 16 * x.trkDdr
  | 0x28 => x.ptmBar
  | 0x2C => x.quiet
  | _ => 0

/-- STATE of SEQ_STAT (R201). -/
def SeqCtlState.code : SeqCtlState → Nat
  | .boundary => 0 | .released => 1 | .complete => 2 | .stopped => 3

/-- SEQ_STAT (R201). -/
def Part.seqStat (x : Part) : Nat :=
  x.st.code + 2 ^ 4 * x.err + 2 ^ 8 * b2n x.ctlIgn + 2 ^ 9 * b2n x.bwIgn + 2 ^ 10 * b2n x.bwBusy

/-- The SEQ window (R201). -/
def State.seqReg (s : State) (p off : Nat) : Nat :=
  let x := s.part p
  match off with
  | 0x04 => x.seqStat
  | 0x08 => x.list.toNat % 2 ^ 32
  | 0x0C => x.list.toNat / 2 ^ 32
  | 0x18 => x.bwSlot.toNat
  | 0x1C => x.bwCells.toNat
  | _ => if 0x20 ≤ off then (Sp.get 0 x.bwE ((off - 0x20) / 4)).toNat else 0

/-- The page-table window (R159). -/
def State.ptReg (s : State) (c off : Nat) : Nat :=
  let x := s.win c
  match off with
  | 0x00 => x.row
  | 0x10 => b2n x.busy + 2 * b2n x.cmdIgn + 2 ^ 4 * x.result
  | _ => 0

/-- Open contexts of a pair. -/
def VidPair.open_ (x : VidPair) : Nat := ((List.range 8).filter (fun j => (Sp.get none x.ctxs j).isSome)).length

/-- The VID window (R269). -/
def State.vidReg (s : State) (k off : Nat) : Nat :=
  let x := s.vpair k
  match off with
  | 0x00 => x.owner.getD 0 + 2 ^ 4 * b2n x.owner.isSome + 2 ^ 8 * x.open_
  | 0x04 => x.stat.toNat
  | 0x08 => x.decPix
  | 0x0C => x.encPix
  | 0x10 => x.synBytes + 2 ^ 24 * x.ahead
  | 0x14 => x.ovr
  | _ => 0

/-- DDR_STAT (R289). -/
def DdrChan.statReg (x : DdrChan) : Nat :=
  x.stat.toNat + 2 ^ 3 * b2n x.selfRef + 2 ^ 8 * x.sp.code + 2 ^ 11 * x.failed

/-- The DDR window (R289). -/
def State.ddrReg (s : State) (c off : Nat) : Nat :=
  let x := s.dchan c
  match off with
  | 0x00 => x.owner.getD 0 + 2 ^ 3 * b2n x.owner.isSome
  | 0x04 => x.statReg
  | 0x08 => x.ce
  | 0x0C => x.ue
  | 0x10 => x.ceLim
  | 0x14 => x.lastErr.toNat
  | _ => 0

/-- WIDTH of STP_LINK (R336). -/
def widthCode (lanes : Nat) : Nat := match lanes with | 1 => 1 | 2 => 2 | 4 => 3 | _ => 0

/-- STP_FAR_SLOT (R336). -/
def Link.farSlot (x : Link) : Nat :=
  2 ^ 15 * b2n x.farValid + (match x.far with
    | some f => (match (farRecord f).2 with | some (slot, port) => slot + 2 ^ 12 * port + 2 ^ 16 | none => 0)
    | none => 0)

/-- The STP window (R336). -/
def State.stpReg (s : State) (i off : Nat) : Nat :=
  let x := s.sport i
  let l := s.link (2 + i)
  match off with
  | 0x00 => b2n l.up + 2 * (if l.up then widthCode l.width else 0) + 2 ^ 3 * b2n x.fecLock + 2 ^ 4 * b2n l.remap + 2 ^ 5 * b2n x.macsec
  | 0x04 => x.stat.toNat
  | 0x08 => x.rxDrop
  | 0x0C => x.seqGap
  | 0x10 => x.fecCe
  | 0x14 => x.fecUe
  | 0x18 => x.reflexDrop
  | 0x1C => x.reflexLate
  | 0x20 => x.reflexLast
  | 0x24 => x.reflexMax
  | 0x30 => l.farSlot
  | _ => 0

/-- PWR_CAP_NOW, PWR_IN and PWR_STAT (R374). -/
def Power.capNowReg (w : Power) : Nat := w.capNow + 2 ^ 8 * w.floorNow
def Power.inReg (w : Power) : Nat := w.meanIn + 2 ^ 16 * w.volts
def Power.statReg (w : Power) : Nat := w.stat.toNat + 2 * b2n w.clampAt.isSome

/-- The global PWR window (R374). -/
def State.pwrReg (s : State) (off : Nat) : Nat :=
  let w := s.power
  match off with
  | 0x00 => w.capSet
  | 0x04 => w.capNowReg
  | 0x08 => w.inReg
  | 0x0C => w.statReg
  | 0x10 => w.clamps
  | 0x14 => w.coolIn + 2 ^ 16 * w.coolOut
  | 0x20 => w.gain
  | _ => 0

/-- PSTATE (R375). -/
def PState.code : PState → Nat
  | .p0 => 0 | .p1 => 1 | .p2 => 2 | .p3 => 3

/-- A partition's PWR window; the budget's rounding is not stated (R375, log 3). -/
def State.pwrPartReg (s : State) (p off : Nat) : Nat :=
  let w := (s.part p).pw
  match off with
  | 0x00 => w.ffloor + 2 ^ 4 * w.fceil + 2 ^ 8 * w.pfloor + 2 ^ 17 * w.pceil
  | 0x04 => w.tol
  | 0x08 => b2n w.idle
  | 0x0C => w.st.code + 2 ^ 6 * w.point + 2 ^ 10 * w.limit + 2 ^ 13 * w.duty + w.ev.toNat
  | 0x10 => if (s.part p).present then sat16 (quot (s.partBudget p).1 (s.partBudget p).2) else 0
  | 0x14 => w.est
  | 0x20 => w.droops
  | 0x24 => w.exit3
  | _ => 0

/-- CLK_STAT (R386). -/
def Clock.statReg (c : Clock) : Nat := c.stat.toNat + b2n c.refOk + 2 * b2n c.onIro + 4 * b2n c.trimLock

/-- The CLK window (R386). -/
def State.clkReg (s : State) (off : Nat) : Nat :=
  let c := s.clk
  match off with
  | 0x00 => c.trimSrc
  | 0x04 => c.statReg
  | 0x08 => c.trim
  | 0x0C => c.oscWait + 2 ^ 3 * b2n c.romRcv + 2 ^ 4 * c.slotId
  | 0x10 => c.fmcSel.toNat
  | 0x14 => c.fmcWin.toNat
  | 0x1C => c.fmcCnt
  | 0x20 => c.fmcStat.toNat
  | 0x24 => c.kind + 2 ^ 4 * c.source + 2 ^ 16 * c.ncomp
  | _ => 0

/-- PHASE of BRU_STAT: the lowest phase not yet ended, or 0 (R407). -/
def BringUp.phase (b : BringUp) : Nat := ((range2 1 10).find? (fun k => !b.ended.contains k)).getD 0

/-- A mask of the indices below `n` that satisfy a test. -/
def maskOf (n : Nat) (f : Nat → Bool) : Nat := (List.range n).foldl (fun a i => a + 2 ^ i * b2n (f i)) 0

/-- The BRU window (R407). -/
def State.bruReg (s : State) (off : Nat) : Nat :=
  let b := s.bru
  match off with
  | 0x00 => b.phase + 2 ^ 4 * b2n b.full + 2 ^ 5 * b2n b.isReady + 2 ^ 6 * b2n b.failed + 2 ^ 8 * b.kind + 2 ^ 10 * b.slot
  | 0x04 => b.time
  | 0x08 => maskOf 16 (fun i => (s.block i).oos)
  | 0x0C => maskOf 32 (fun r => b.noSpare.contains r)
  | 0x10 => maskOf 8 (fun c => (s.dchan c).oos) + 2 ^ 8 * maskOf 8 (fun c => (s.dchan c).sp == .exposed)
      + 2 ^ 16 * maskOf 8 (fun c => (s.dchan c).newFail)
  | 0x14 => b.newCells + 2 ^ 16 * sat16 b.newRows
  | 0x18 => s.licBlocks + 2 ^ 5 * s.licParts + 2 ^ 10 * b2n s.licVideo + 2 ^ 11 * b2n s.licReflex + 2 ^ 12 * b2n s.watch.licValid
  | _ => 0

/-- LIC_ID of the licence in force (R407). -/
def State.licId (s : State) : Nat :=
  if s.watch.licValid then (match s.watch.licence with | some b => u64 b 0x10 | none => 0) else 0

/-- DIC_CORE_STAT of a core (R463). -/
def State.dicCoreStat (s : State) (c : Nat) : Nat :=
  let x := s.core c
  x.claim.getD 0 + 2 ^ 8 * b2n x.claim.isSome + 2 ^ 9 * b2n (s.dicLine c) + 2 ^ 10 * b2n x.compIgn

/-- A word of 32 source bits. -/
def sourceWord (w : Nat) (f : Nat → Bool) : Nat := maskOf 32 (fun i => 32 * w + i != 0 && f (32 * w + i))

/-- The DIC window (R463). -/
def State.dicReg (s : State) (off : Nat) : Nat :=
  let i := off % 0x20 / 4
  if off < 0x20 then sourceWord i (fun k => s.dome.enable.contains k)
  else if off < 0x40 then sourceWord i s.dicPending
  else if off < 0x60 then sourceWord i s.dicClaimed
  else if off < 0x80 then sourceWord i dicIsLevel
  else if off = 0x80 then s.dome.spur
  else if off < 0x400 then 0
  else if off < 0x800 then (if off = 0x400 then 0 else Sp.get 0 s.dome.target ((off - 0x400) / 4))
  else if off < 0x900 then
    let c := (off - 0x800) / 0x20
    (match off % 0x20 with
    | 0x08 => s.dicCoreStat c
    | 0x0C => b2n (s.core c).soft
    | _ => 0)
  else 0

/-- STATE of DOME_STAT (R456). -/
def CoreState.code : CoreState → Nat
  | .spare => 0 | .run => 1 | .failed => 2

/-- The core control window (R456). -/
def State.coreReg (s : State) (off : Nat) : Nat :=
  if off < 0x20 then let c := s.core (off / 4); c.st.code + 4 * c.cause
  else if off = 0x34 then b2n s.dome.startIgn
  else if off = 0x40 then s.dome.accStat.toNat
  else 0

/-- The value of a register that is no half of a 64-bit quantity. -/
def State.regValue (s : State) (w : Win) (off : Nat) : Nat :=
  match w with
  | .cell n => s.cellReg n off
  | .pan n => s.panReg n off
  | .ptm p => s.ptmReg p off
  | .seq p => s.seqReg p off
  | .pt c => s.ptReg c off
  | .vid k => s.vidReg k off
  | .ddr c => s.ddrReg c off
  | .stp i => s.stpReg i off
  | .pwr => s.pwrReg off
  | .clk => s.clkReg off
  | .bru => s.bruReg off
  | .pwrPart p => s.pwrPartReg p off
  | .pwrQueue => 0
  | .dic => s.dicReg off
  | .core => s.coreReg off

/-- The 64-bit quantity whose low half lies at an offset, or none (R4). -/
def State.regPair (s : State) (w : Win) (off : Nat) : Option Nat :=
  match w, off with
  | .cell n, 0x10 => some (wrap64 (s.cell n).beats)
  | .ptm _, 0x00 => some (wrap64 s.now)
  | .ptm p, 0x08 => some (s.part p).dl
  | .ptm p, 0x10 => some (s.part p).doneTick
  | .seq p, 0x10 => some (s.part p).step
  | .pt c, 0x08 => some (s.win c).pte.toNat
  | .stp i, 0x28 => some (match (s.link (2 + i)).far with | some f => farNumber f | none => 0)
  | .pwr, 0x18 => some (wrap64 (s.power.energy / 100000))
  | .pwrPart p, 0x18 => some (wrap64 ((s.part p).pw.energy / 163840))
  | .pwrQueue, o => if o % 8 = 0 ∧ o < 0x60 then some (wrap64 (Sp.get 0 s.power.queues (o / 8) / 163840)) else none
  | .bru, 0x1C => some s.licId
  | .core, 0x20 => some s.dome.boot
  | .core, 0x38 => some s.dome.accAddr
  | .dic, o => if 0x800 ≤ o ∧ o < 0x900 ∧ o % 0x20 = 0x10 then some (s.core ((o - 0x800) / 0x20)).timer else none
  | _, _ => none

/-- What reading an RC counter or flag clears (R9, R11). -/
def State.regClear (s : State) (w : Win) (off : Nat) : State :=
  match w, off with
  | .cell n, 0x18 => s.onCell n (fun c => { c with ssWait := 0 })
  | .cell n, 0x1C => s.onCell n (fun c => { c with ssCe := 0 })
  | .pan n, 0x08 => s.onPan n (fun x => { x with ce := 0 })
  | .pan n, 0x0C => s.onPan n (fun x => { x with ue := 0 })
  | .pan n, 0x14 => s.onPan n (fun x => { x with wait := 0 })
  | .ptm p, 0x1C => s.onPart p (fun x => { x with miss := 0 })
  | .ptm p, 0x20 => s.onPart p (fun x => { x with limWait := 0 })
  | .vid k, 0x08 => s.onVpair k (fun x => { x with decPix := 0 })
  | .vid k, 0x0C => s.onVpair k (fun x => { x with encPix := 0 })
  | .vid k, 0x14 => s.onVpair k (fun x => { x with ovr := 0 })
  | .ddr c, 0x08 => s.onDchan c (fun x => { x with ce := 0 })
  | .ddr c, 0x0C => s.onDchan c (fun x => { x with ue := 0 })
  | .stp i, 0x08 => s.onSport i (fun x => { x with rxDrop := 0 })
  | .stp i, 0x0C => s.onSport i (fun x => { x with seqGap := 0 })
  | .stp i, 0x10 => s.onSport i (fun x => { x with fecCe := 0 })
  | .stp i, 0x14 => s.onSport i (fun x => { x with fecUe := 0 })
  | .stp i, 0x18 => s.onSport i (fun x => { x with reflexDrop := 0 })
  | .stp i, 0x1C => s.onSport i (fun x => { x with reflexLate := 0 })
  | .stp i, 0x24 => s.onSport i (fun x => { x with reflexMax := 0 })
  | .pwr, 0x10 => { s with power := { s.power with clamps := 0 } }
  | .pwrPart p, 0x20 => s.onPart p (fun x => { x with pw := { x.pw with droops := 0 } })
  | .dic, 0x80 => { s with dome := { s.dome with spur := 0 } }
  | _, _ => s

-- BAR0 (R293).

/-- The registers of BAR0 of a function on a port, that are no half of a 64-bit quantity (R293). -/
def State.hpReg (s : State) (h f off : Nat) : Nat :=
  let x := s.hp h f
  match off with
  | 0x00 => f + 2 ^ 5 * h + 2 ^ 6 * (if f = 0 then 0 else 1)
      + (if f = 0 then 0 else 2 ^ 8 * (f - 1) + 2 ^ 12 * b2n (s.part (f - 1)).valid)
  | 0x04 => 0x0101 + 2 ^ 16 * x.vsel + 2 ^ 24 * b2n x.session.isSome
  | 0x08 => x.stat.toNat
  | 0x0C => x.ctl.toNat
  | 0x14 => x.pos
  | 0x18 => x.credit
  | 0x1C => x.disc
  | 0x28 => x.size
  | 0x2C => x.head
  | 0x30 => x.tail
  | 0x3C => x.irqMod.toNat
  | 0x40 => x.ringFull
  | 0x44 => x.nacks
  | 0x3000 => x.pba
  | _ => if 0x2000 ≤ off ∧ off < 0x2040 then (x.msixWord ((off - 0x2000) / 4)).toNat else 0

/-- The 64-bit quantities of BAR0 (R293). -/
def State.hpPair (s : State) (h f off : Nat) : Option Nat :=
  match off with
  | 0x20 => some (s.hp h f).base
  | 0x34 => some (s.hp h f).statusAddr
  | _ => none

end Sys2Proof.Machine
end

