-- ==== Sys2Proof/Machine/Management.lean ====
section
/-!
DEFINITION. The management port (R408 to R423, R470): HELLO, the checks on received commands, and each command, which the
Watchtower executes one at a time in the order of arrival.
-/
namespace Sys2Proof.Machine

-- Frames (R413).

namespace Mg

def magic : Nat := 0x4554474D
def ver (b : Bytes) : Nat := u8 b 4
def mtype (b : Bytes) : Nat := u8 b 5
def opc (b : Bytes) : Nat := u16 b 6
def keyid (b : Bytes) : Nat := u8 b 8
def plen (b : Bytes) : Nat := u32 b 0x0C
def boot (b : Bytes) : Nat := u64 b 0x10
def ctr (b : Bytes) : Nat := u64 b 0x18
def serial (b : Bytes) : Nat := u64 b 0x20
def payload (b : Bytes) : Bytes := slice b 48 (plen b)
/-- What the signature covers, and the signature. -/
def signed (b : Bytes) : Bytes := b.take (48 + plen b)
def sig (b : Bytes) : Bytes := slice b (48 + plen b) 64

end Mg

/-- The Watchtower serves port M: from the end of phase 2, while the module has power (R359, R405, R482). -/
def State.mgmtAlive (s : State) : Bool :=
  s.bru.ended.contains 2 && s.board.st == .on && !s.board.p4 && !s.board.resetLow

/-- MGMT_HELLO: answered with the boot nonce, the version and the certificate; it changes no state (R413, R416). -/
def execMgmtHello (frame : Bytes) (replyTo : Nat) (s : State) : Out :=
  let ok := u32 frame 0 == Mg.magic && Mg.ver frame == 0 && Mg.mtype frame == 1 && decide (2 ≤ Mg.plen frame)
    && decide (Mg.plen frame ≤ 1024) && frame.length == 48 + Mg.plen frame
  if !s.mgmtAlive || !ok then .next s
  else
    let vsel := b2n (decide (u8 frame 48 ≤ 1) && decide (1 ≤ u8 frame 49))
    let body := bytes [vsel, 1, 1, 0] ++ le 2 s.clk.slotId ++ zeros 2 ++ Crypto.x25519Public s.watch.bootKey ++ fit 128 s.watch.cert
    .next (s.out (.mgmt replyTo (s.mgmtFrame 2 0 255 0 0 body vsel)))

-- Checks (R414, R417 to R419).

/-- Check 1: length, MAGIC, VER, MTYPE and reserved fields (R413, R414). -/
def mgmtFormOk (b : Bytes) : Bool :=
  u32 b 0 == Mg.magic && Mg.ver b == 1 && Mg.mtype b == 3 && decide (Mg.plen b ≤ 1024) && b.length == 48 + Mg.plen b + 64
    && u8 b 9 == 0 && u16 b 0x0A == 0 && allZero b 0x28 8

/-- An operator key of a slot (R418). -/
def State.oper (s : State) (slot : Nat) : Option OperKey := Sp.get none s.watch.oper slot

/-- No operator key is enrolled (R419). -/
def State.noKeys (s : State) : Bool := (List.range 16).all (fun i => (s.oper i).isNone)

/-- The key that check 3 verifies under: the slot's, or on a module without keys the ADMIN key that the command enrols (R414,
R419). -/
def State.checkKey (s : State) (b : Bytes) : Option Bytes :=
  let p := Mg.payload b
  if s.noKeys then
    if Mg.opc b = 0x10 ∧ Mg.plen b = 34 ∧ u8 p 0 = Mg.keyid b ∧ Mg.keyid b < 16 ∧ u8 p 1 = 1 then some (slice p 2 32) else none
  else if Mg.keyid b < 16 then (s.oper (Mg.keyid b)).map (·.key) else none

/-- Checks 1 to 3 (R414). -/
def State.mgmtPasses (s : State) (b : Bytes) : Bool :=
  mgmtFormOk b && Mg.serial b == s.watch.serial && Mg.boot b == s.watch.nonce
    && (match s.checkKey b with | some k => Crypto.edVerify k (Mg.signed b) (Mg.sig b) | none => false)

/-- A management frame is discarded and counted (R414). -/
def State.mgmtDiscard (s : State) : State := { s with watch := { s.watch with discards := sat32 (s.watch.discards + 1) } }

/-- MGMT_CMD_CHECK: a received CMD is discarded, answered again as a retransmission, or held (R414, R415, R417). -/
def execMgmtCmdCheck (frame : Bytes) (replyTo : Nat) (s : State) : Out :=
  let w := s.watch
  let slot := Mg.keyid frame
  let high := Sp.get 0 w.ctr slot
  if !s.mgmtAlive then .next s
  else if !s.mgmtPasses frame then .next s.mgmtDiscard
  else if Mg.ctr frame = high ∧ Sp.get none w.lastCmd slot = some frame then
    .next (match Sp.get none w.lastResp slot with | some r => s.out (.mgmt replyTo r) | none => s)
  else if Mg.ctr frame ≤ high ∨ 8 ≤ w.held.length then .next s.mgmtDiscard
  else
    .next { s with watch := { w with
      ctr := Sp.set 0 w.ctr slot (Mg.ctr frame), lastCmd := Sp.set none w.lastCmd slot (some frame)
      lastResp := Sp.set none w.lastResp slot none, held := w.held ++ [(frame, replyTo)] } }

-- Execution (R417, R421).

/-- Command codes (R421). -/
def mgmtOpcs : List Nat :=
  [0x02, 0x03, 0x04, 0x10, 0x11, 0x12, 0x20, 0x21, 0x30, 0x40, 0x41, 0x50, 0x51, 0x52, 0x60, 0x61, 0x62, 0x70, 0x71, 0x80]

/-- Commands that need the Dome: those on stream entries (R417). -/
def mgmtNeedsDome (opc : Nat) : Bool := opc == 0x60 || opc == 0x61 || opc == 0x62

/-- Sends the RESP of a command, which is stored while the slot's last command is this one (R414, R417). -/
def State.mgmtAnswer (s : State) (c : Bytes × Nat) (result : Nat) (body : Bytes) : State :=
  let slot := Mg.keyid c.1
  let fr := s.mgmtFrame 4 (Mg.opc c.1) slot result (Mg.ctr c.1) body
  let w := s.watch
  let w := if Sp.get none w.lastCmd slot = some c.1 then { w with lastResp := Sp.set none w.lastResp slot (some fr) } else w
  { s with watch := w }.out (.mgmt c.2 fr)

/-- Commands with an unknown code at the head of those held are answered UNKNOWN_OP (R421). -/
def State.mgmtUnknown : Nat → State → State
  | 0, s => s
  | k + 1, s =>
    match s.watch.held with
    | c :: t => if mgmtOpcs.contains (Mg.opc c.1) then s
        else State.mgmtUnknown k ({ s with watch := { s.watch with held := t } }.mgmtAnswer c 0x0100 [])
    | [] => s

/-- Runs the oldest command held, if it has this code: role, length, and then the command itself, which takes the payload and the
frame and gives its result and the body of its RESP; what follows the RESP comes last (R417, R418, R421). -/
def State.mgmtRun (s : State) (opc role : Nat) (len : Option Nat) (run : State → Bytes → Bytes → Nat × Bytes × State)
    (after : State → Bytes → Nat → State := fun s _ _ => s) : State :=
  if !s.mgmtAlive then s
  else
    let s := s.mgmtUnknown 8
    match s.watch.held with
    | [] => s
    | c :: t =>
      if Mg.opc c.1 ≠ opc then s
      else
        let popped := { s with watch := { s.watch with held := t } }
        if mgmtNeedsDome opc && !s.bru.isReady then
          (if s.bru.failed || s.fw.forfort then popped.mgmtAnswer c 0x0103 [] else s)
        else
          let has := if s.noKeys then 1 else match s.oper (Mg.keyid c.1) with | some k => k.role | none => 4
          let lenOk := match len with | some n => Mg.plen c.1 == n | none => true
          if role < has then popped.mgmtAnswer c 0x0101 []
          else if !lenOk then popped.mgmtAnswer c 0x0102 []
          else
            let (r, body, s) := run popped (Mg.payload c.1) c.1
            after (s.mgmtAnswer c r body) (Mg.payload c.1) r

/-- Roles that a command asks for (R418). -/
def roleAdmin : Nat := 1
def roleOperator : Nat := 2
def roleObserver : Nat := 3

/-- Body of STATUS (R421). -/
def State.statusBody (s : State) : Bytes :=
  (List.range 7).flatMap (fun i => le 4 (s.bruReg (4 * i))) ++ le 8 s.licId ++ le 4 s.power.capNowReg ++ le 4 s.power.inReg
    ++ le 4 s.power.statReg ++ le 4 s.clk.statReg ++ (List.range 8).flatMap (fun c => le 4 (s.dchan c).statReg)
    ++ le 4 s.pair.st.code ++ le 4 s.watch.discards

/-- STATUS (R421). -/
def execStatus (s : State) : Out := .next (s.mgmtRun 0x02 roleObserver (some 0) (fun s _ _ => (0, s.statusBody, s)))

/-- ATTEST_MOD: a module report (R421, R430). -/
def execAttestMod (s : State) : Out :=
  .next (s.mgmtRun 0x03 roleObserver (some 32) (fun s p _ => (0, s.report 255 255 [] 0 p, s)))

/-- Records in NUM order. -/
def insertNum (r : FaultRec) : List FaultRec → List FaultRec
  | [] => [r]
  | q :: t => if r.num < q.num then r :: q :: t else q :: insertNum r t
def sortNum (l : List FaultRec) : List FaultRec := l.foldl (fun a r => insertNum r a) []

/-- Body of FAULT_READ (R470). -/
def State.faultBody (s : State) (src from_ : Nat) : Bytes :=
  let recs := ((sortNum (if src = 0 then s.faults.hist else s.faults.persist)).filter (fun r => decide (from_ ≤ r.num))).take 30
  let next := match recs.getLast? with | some r => r.num + 1 | none => s.faults.num
  le 4 next ++ le 1 recs.length ++ zeros 3 ++ (range2 1 24).flatMap (fun c => le 2 (Sp.get 0 s.faults.totals c))
    ++ recs.flatMap FaultRec.bytes

/-- FAULT_READ (R421, R470). -/
def execFaultRead (s : State) : Out :=
  .next (s.mgmtRun 0x04 roleObserver (some 5) (fun s p _ =>
    if 1 < u8 p 4 then (0x0102, [], s) else (0, s.faultBody (u8 p 4) (u32 p 0), s)))

/-- The key list as a command would leave it, refused with LAST_ADMIN where it holds no ADMIN key (R419). -/
def State.setOper (s : State) (l : Sparse (Option OperKey)) : Nat × Bytes × State :=
  if l.any (fun e => match e.2 with | some k => k.role == 1 | none => false) then
    (0, [], { s with watch := { s.watch with oper := l } })
  else (1, [], s)

/-- KEY_ENROLL (R419, R421). -/
def execKeyEnroll (s : State) : Out :=
  .next (s.mgmtRun 0x10 roleAdmin (some 34) (fun s p _ =>
    let (slot, role) := (u8 p 0, u8 p 1)
    if 15 < slot ∨ role = 0 ∨ 3 < role then (0x0102, [], s)
    else s.setOper (Sp.set none s.watch.oper slot (some { role := role, key := slice p 2 32 }))))

/-- KEY_REVOKE (R419, R421). -/
def execKeyRevoke (s : State) : Out :=
  .next (s.mgmtRun 0x11 roleAdmin (some 1) (fun s p _ =>
    let slot := u8 p 0
    if 15 < slot then (0x0102, [], s)
    else if (s.oper slot).isNone then (0x0104, [], s)
    else s.setOper (Sp.set none s.watch.oper slot none)))

/-- KEY_LIST: role and key of each slot, zero where none is enrolled (R421). -/
def execKeyList (s : State) : Out :=
  .next (s.mgmtRun 0x12 roleObserver (some 0) (fun s _ _ =>
    (0, (List.range 16).flatMap (fun i => match s.oper i with
      | some k => le 1 k.role ++ fit 32 k.key
      | none => zeros 33), s)))

/-- A key as a command writes it: a zero key removes the entry (R421). -/
def keyOrNone (b : Bytes) : Option Bytes := if allZero b 0 b.length then none else some b

/-- PLATEKEY_SET (R421). -/
def execPlatekeySet (s : State) : Out :=
  .next (s.mgmtRun 0x20 roleAdmin (some 34) (fun s p _ =>
    let (t, i) := (u8 p 0, u8 p 1)
    if 7 < t ∨ 3 < i then (0x0102, [], s)
    else (0, [], { s with watch := { s.watch with plateKeys := Sp.set none s.watch.plateKeys (4 * t + i) (keyOrNone (slice p 2 32)) } })))

/-- The sessions of a function end on both ports (R427). -/
def State.endSessions (s : State) (f : Nat) : State :=
  (List.range 2).foldl (fun s h => s.onHp h f (fun x => { x with session := none, endAfter := none })) s

/-- HOSTKEY_PIN: a changed pin ends the function's sessions (R421, R427, R428). -/
def execHostkeyPin (s : State) : Out :=
  .next (s.mgmtRun 0x21 roleAdmin (some 33) (fun s p _ =>
    let f := u8 p 0
    let key := keyOrNone (slice p 1 32)
    if 16 < f then (0x0102, [], s)
    else
      let s := if key = Sp.get none s.watch.pins f then s else s.endSessions f
      (0, [], { s with watch := { s.watch with pins := Sp.set none s.watch.pins f key } })))

/-- LIC_IN_USE: what the partitions and pairs hold exceeds a licence (R409). -/
def State.licInUse (s : State) (b : Bytes) : Bool :=
  let live := (List.range 16).filter (fun p => (s.part p).present)
  decide (Lic.blocks b < (live.map (fun p => (s.part p).blocks.length)).sum) || decide (Lic.parts b < live.length)
    || (!Lic.video b && (List.range 4).any (fun k => (s.vpair k).owner.isSome))
    || (!Lic.reflex b && live.any (fun p => (s.part p).reflex))

/-- The check of a licence in the order of R409: the result, and the state. -/
def State.installLicence (s : State) (b : Bytes) : Nat × State :=
  let cur := if s.watch.licValid then s.watch.licence else none
  match Lic.refusal s.watch.licKey s.watch.serial b with
  | some r => (r, s)
  | none =>
    if cur = some b then (0, s)
    else if (match cur with | some c => decide (Lic.id b ≤ Lic.id c) | none => false) then (0x44, s)
    else if s.licInUse b then (0x45, s)
    else (0, { s with watch := { s.watch with licence := some b, licValid := true } })

/-- LICENCE_INSTALL (R409, R411, R421). -/
def execLicenceInstall (s : State) : Out :=
  .next (s.mgmtRun 0x30 roleAdmin none (fun s p _ => let (r, s) := s.installLicence p; (r, [], s)))

/-- CAP_SET: the cap is written to PWR_CAP_SET; one out of range is discarded there, and answered FIELD (R361, R374, R421). -/
def execCapSet (s : State) : Out :=
  .next (s.mgmtRun 0x40 roleOperator (some 4) (fun s p _ =>
    let v := u32 p 0
    (if v < 30 ∨ 140 < v then 0x0102 else 0, [], s.writeCap v)))

/-- TRIM_SET (R382, R421). -/
def execTrimSet (s : State) : Out :=
  .next (s.mgmtRun 0x41 roleOperator (some 4) (fun s p _ =>
    let v := u32 p 0
    if 3 < v then (0x0102, [], s) else (0, [], s.onClk (fun c => c.setTrim v))))

/-- PORT_ADDR: addresses stand in network order; a zero one removes the address (R3, R421). -/
def execPortAddr (s : State) : Out :=
  .next (s.mgmtRun 0x50 roleOperator (some 24) (fun s p _ =>
    let port := u8 p 0
    let a : PortAddr := { vid := u16 p 1, ipv4 := beNat (slice p 3 4), ipv6 := beNat (slice p 7 16), prefixLen := u8 p 23 }
    if 2 < port ∨ 4095 < a.vid ∨ 128 < a.prefixLen then (0x0102, [], s)
    else (0, [], { s with watch := { s.watch with addrs := Sp.set {} s.watch.addrs port a } })))

/-- The plaintext of a wrapped field, or none where its tag or the shared secret fails (R420). -/
def State.unwrap (s : State) (frame : Bytes) (off len : Nat) : Option Bytes :=
  let p := Mg.payload frame
  let z := Crypto.x25519 s.watch.bootKey (slice p off 32)
  if allZero z 0 z.length then none
  else
    let key := Crypto.hkdfExpand (Crypto.hkdfExtract (le 8 s.watch.nonce) z) (ascii "EV7 wrap") 32
    Crypto.gcmOpen key (le 8 (Mg.ctr frame) ++ zeros 4) (frame.take 48) (slice p (off + 32) len) (slice p (off + 32 + len) 16)

/-- A SAK enters an association of a port; a receive association expects the starting number or above (R321, R421). -/
def StreamPort.setSak (x : StreamPort) (tx : Bool) (an pn : Nat) (sak : Bytes) : StreamPort :=
  if tx then { x with txSa := Sp.set none x.txSa an (some { sak := sak, pn := pn }) }.checkPn
  else { x with rxSa := Sp.set none x.rxSa an (some { sak := sak, pn := pn }), rxPn := Sp.set 0 x.rxPn an (pn - 1) }

/-- MACSEC_SAK (R321, R420, R421). -/
def execMacsecSak (s : State) : Out :=
  .next (s.mgmtRun 0x51 roleAdmin (some 87) (fun s p frame =>
    let (port, dir, an, pn) := (u8 p 0, u8 p 1, u8 p 2, u32 p 3)
    if 1 < port ∨ 1 < dir ∨ 3 < an then (0x0102, [], s)
    else match s.unwrap frame 7 32 with
    | none => (0x0102, [], s)
    | some sak => (0, [], s.onSport port (fun x => x.setSak (dir == 1) an pn sak))))

/-- MACSEC_CTL (R321, R421). -/
def execMacsecCtl (s : State) : Out :=
  .next (s.mgmtRun 0x52 roleAdmin (some 7) (fun s p _ =>
    let (port, en, an) := (u8 p 0, u8 p 1, u8 p 2)
    if 1 < port ∨ 1 < en ∨ 3 < an then (0x0102, [], s)
    else if (Sp.get none (s.sport port).txSa an).isNone then (0x0002, [], s)
    else (0, [], s.onSport port (fun x => { x with macsec := en == 1, txAn := an, replayWin := u32 p 3 }.checkPn))))

-- Stream entries (R322, R323).

/-- The fields of an entry lie within R322. -/
def entryFieldsOk (e : StreamEntry) : Bool :=
  let k := e.kind
  1 ≤ k && k ≤ 3 && 1 ≤ e.ports && e.ports ≤ 3 && e.udp != 0 && e.part ≤ 15
    && (if k = 1 then e.chan == 0 else e.chan != 0) && (k == 1 || e.vctx == 0)
    && (if k = 1 then (96 ≤ e.payloadType && e.payloadType ≤ 127) || e.payloadType == 0xFF else e.payloadType == 0)
    && (k == 1 || e.ssrcField == 0) && (k != 3 || e.latUs == 0) && (if k = 3 then u8 e.raw 0x24 ≤ 1 else u8 e.raw 0x24 == 0)
    && allZero e.raw 0x25 11

/-- An RTP entry names a decode context that is open, in a partition that exists (R322). -/
def State.entryVctxOk (s : State) (e : StreamEntry) : Bool :=
  e.kind != 1 || !(s.part e.part).valid
    || (match s.findVctx e.part e.vctx with | some (_, _, c) => c.isDecode && c.closeCmd.isNone | none => false)

/-- Another entry on a common port has the same UDPPORT and SRC, or a port has no address (R323, R324). -/
def State.entryClash (s : State) (e : StreamEntry) : Bool :=
  (s.findStream (fun o => o.ports &&& e.ports != 0 && o.udp == e.udp && o.src == e.src)).isSome
    || (List.range 2).any (fun h => e.onPort h && (s.portAddr h).ipv4 == 0 && (s.portAddr h).ipv6 == 0)

/-- The refusal of a new entry, in the order of R323, or none. -/
def State.entryRefusal (s : State) (e : StreamEntry) : Option Nat :=
  if !entryFieldsOk e || !s.entryVctxOk e then some 0x31
  else if !(s.part e.part).valid || (e.kind == 3 && !(s.part e.part).reflex) then some 0x32
  else if s.entryClash e then some 0x33
  else if e.kind == 3 && !s.licReflex then some 0x34
  else if e.kind != 1 && 32 ≤ s.streamCount then some 0x35
  else none

/-- STREAM_ADD: the entry takes the lowest free index, and its silence deadline is armed (R322, R323, R328, R421). -/
def execStreamAdd (s : State) : Out :=
  .next (s.mgmtRun 0x60 roleOperator (some 48) (fun s p _ =>
    let e : StreamEntry := { raw := p }
    match s.entryRefusal e with
    | some r => (r, [], s)
    | none =>
      match (List.range 32).find? (fun i => (s.stream i).isNone) with
      | some i => (0, le 1 i, s.setStream i (some (e.heard s.now)))
      | none => (0x0105, [], s)))

/-- STREAM_REMOVE (R421). -/
def execStreamRemove (s : State) : Out :=
  .next (s.mgmtRun 0x61 roleOperator (some 1) (fun s p _ =>
    let i := u8 p 0
    if 31 < i then (0x0102, [], s)
    else if (s.stream i).isNone then (0x0104, [], s)
    else (0, [], s.removeStream i)))

/-- Body of STREAM_LIST (R421). -/
def State.streamBody (s : State) (first : Nat) : Bytes :=
  let all := (List.range 32).filter (fun i => (s.stream i).isSome)
  let some_ := (all.filter (fun i => decide (first ≤ i))).take 16
  bytes [all.length, some_.length, 0, 0] ++ some_.flatMap (fun i => le 1 i ++ zeros 3
    ++ (match s.stream i with | some e => fit 48 e.raw | none => zeros 48))

/-- STREAM_LIST (R421). -/
def execStreamList (s : State) : Out :=
  .next (s.mgmtRun 0x62 roleObserver (some 1) (fun s p _ =>
    if 31 < u8 p 0 then (0x0102, [], s) else (0, s.streamBody (u8 p 0), s)))

-- Resets, power-off, events.

/-- A reset that management asks for; one that a reset in progress absorbs has no effect (R386, R387, R391). -/
def State.mgmtReset (s : State) (kind : Nat) (full : Bool) : State :=
  if kind = 1 then s.coldReset 3 full
  else if kind = 2 then (if s.mayReset 4 then s.warmReset 3 else s)
  else if s.mayReset 2 ∧ !s.fw.forfort then s.computeReset 3
  else s

/-- RESET: the RESP is sent, and the reset follows (R394, R417, R421). -/
def execReset (s : State) : Out :=
  .next (s.mgmtRun 0x70 roleAdmin (some 2)
    (fun s p _ => (if u8 p 0 = 0 ∨ 3 < u8 p 0 ∨ 1 < u8 p 1 ∨ (u8 p 0 ≠ 1 ∧ u8 p 1 ≠ 0) then 0x0102 else 0, [], s))
    (fun s p r => if r = 0 then s.mgmtReset (u8 p 0) (u8 p 1 == 1) else s))

/-- P4: every domain is off, and nothing but the persistent store is kept (R354, R359). -/
def State.enterP4 (s : State) : State := { s.keepStore with board := { st := .off, p4 := true } }

/-- POWER_OFF: the RESP is sent, and the module enters P4 (R359, R417, R421). -/
def execPowerOff (s : State) : Out :=
  .next (s.mgmtRun 0x71 roleAdmin (some 0) (fun s _ _ => (0, [], s)) (fun s _ r => if r = 0 then s.enterP4 else s))

/-- EVENT_DEST: where EVENT frames go; a zero address stops them (R421, R423). -/
def execEventDest (s : State) : Out :=
  .next (s.mgmtRun 0x80 roleOperator (some 18) (fun s p _ =>
    (0, [], { s with watch := { s.watch with evAddr := beNat (slice p 0 16), evPort := u16 p 16 } })))

end Sys2Proof.Machine
end

