-- ==== Sys2Proof/Machine/Board.lean ====
section
/-!
DEFINITION. The end of a fault window (R469), the loss of the presence loop (R352, R353, R485), and the board controller with its
pins and the 48 V input (R480 to R484).
-/
namespace Sys2Proof.Machine

/-- FAULT_WINDOW_END: 1 ms after the first occurrence, those collected since go as one record (R469). -/
def execFaultWindowEnd (key : Nat) (s : State) : Out :=
  match Sp.get none s.faults.windows key with
  | some w => .next (if w.opened + faultWindowTicks ≤ s.now then s.closeWindow key else s)
  | none => .next s

-- Removal (R352, R353, R485).

/-- The supplies of the module are up, and MOD_RESET_N does not hold it in reset. -/
def State.powered (s : State) : Bool := s.board.st == .on && !s.board.p4 && !s.board.resetLow

/-- The LOSS frame of a removal (R300, R352). -/
def State.lossPayload (s : State) : Bytes :=
  bytes [1, 0, 0, 0, 0, 0, 0, 0] ++ le 8 s.watch.serial ++ le 8 s.now ++ le 2 s.clk.slotId ++ zeros 6

/-- One LOSS frame is written into the PF0 ring of a port whose ring is enabled and has room (R309, R352). -/
def State.lossFrame (s : State) (h : Nat) : State :=
  let x := s.hp h 0
  let fr : OutFrame := { typ := 0x10, seq := s.ctrl h, payload := s.lossPayload, port := some h }
  if !bit x.ctl 0 then s
  else match x.room (fr.ringBytes (s.sealed h 0 fr)) with
  | none => s
  | some pad => { s with ctrls := Sp.set 0 s.ctrls h (wrap64 (s.ctrl h + 1)) }.writeRing h 0 fr pad

/-- A shutdown LLDPDU on S0, S1 or M (R335, R352). -/
def State.lldpShutdown (s : State) (port : Nat) : State :=
  if (s.link port).up then s.out (.lldp port 0 s.watch.serial s.clk.slotId port) else s

/-- PRESENCE_OPEN: issue stops, and LOSS frames and shutdown LLDPDUs leave; only a cold reset resumes (R352, R353, R457, R485). -/
def execPresenceOpen (s : State) : Out :=
  if !s.powered || s.board.removed then .next s
  else if s.board.tripped then .next { s with board := { s.board with removed := true } }
  else
    let s := s.edge 1
    let s := { s with bru := { s.bru with halted := true }, board := { s.board with removed := true, lossAt := some s.now } }
    let s := (s.lineFrame 3).lossFrame 0
    .next (((s.lossFrame 1).lldpShutdown 2).lldpShutdown 3 |>.lldpShutdown 4)

/-- LOSS_LINE_REPEAT: a LOSS line frame every 10 µs (R352). -/
def execLossLineRepeat (s : State) : Out :=
  match s.board.lossAt with
  | some t =>
    if s.powered ∧ s.board.removed ∧ t + 10 * usTicks ≤ s.now then
      .next { s.lineFrame 3 with board := { s.board with lossAt := some s.now } }
    else .next s
  | none => .next s

-- The board controller (R481 to R484).

/-- The supplies are up: a cold reset begins, or waits for MOD_RESET_N (R481, R482, R387). -/
def State.powerUp (s : State) : State :=
  if s.board.resetLow then { s.keepStore with board := { st := .on, resetLow := true } } else s.coldReset s.board.cause false

/-- POWER_GOOD: the contacts and the input have been good for 100 ms, and every rail is in regulation (R481). -/
def execPowerGood (s : State) : Out :=
  .next (if s.board.st == .off && !s.board.p4 then s.powerUp else s)

/-- MOD_RESET_N has been low for a time and is still low: from 10 µs on, the module is held in cold reset, and one in P4 powers up
(R359, R482). -/
def State.resetHeld (s : State) : State :=
  if s.board.resetLow then s
  else if s.board.p4 then { s with board := { st := .off, resetLow := true, cause := 1 } }
  else if s.board.st == .off then { s with board := { s.board with resetLow := true } }
  else { s.keepStore with board := { st := .on, resetLow := true } }

/-- MOD_RESET_N rises after 10 µs or more: a module with power starts a cold reset with SOURCE 1 (R386, R387, R482). -/
def State.resetReleased (s : State) : State :=
  let s := s.resetHeld
  if s.board.st == .on then s.coldReset 1 false else { s with board := { s.board with resetLow := false } }

/-- MOD_RESET_N: the pin has been low for a time, and rises or is still low. Between 1 µs and 10 µs the outcome of a pulse is
undefined (R482). -/
def execModResetN (released : Bool) (lowNs : Nat) (s : State) : Out :=
  if lowNs < 1000 then .next s
  else if lowNs < 10000 then (if released then .fault .undefinedResetPulse else .next s)
  else .next (if released then s.resetReleased else s.resetHeld)

/-- WAKE_N: in P4 a low pulse of 10 µs or longer starts a power-up (R359, R482). -/
def execWakeN (lowNs : Nat) (s : State) : Out :=
  .next (if s.board.p4 && decide (10000 ≤ lowNs) then { s with board := { st := .off, cause := 2 } } else s)

/-- The input is outside its limits for long enough (R483). -/
def inputBad (mv us : Nat) : Bool :=
  (decide (mv < 36000) && decide (100 < us)) || (decide (mv < 38000) && decide (10000 < us)) || (decide (62000 < mv) && decide (100 < us))

/-- INPUT_FAULT: undervoltage or overvoltage switches off every supply; the board controller itself forgets P4 only when it loses
its input (R480, R483, R484). -/
def execInputFault (mv us : Nat) (s : State) : Out :=
  .next (if inputBad mv us then
      { s.keepStore with board := { st := .off, p4 := s.board.p4 && decide (0 < mv), resetLow := s.board.resetLow } }
    else s)

end Sys2Proof.Machine
end

