-- ==== Sys2Proof/Machine/Moves.lean ====
section
/-!
DEFINITION. Data movement: Pan ports (R58, R96), the mesh (R62 to R69, R98), the cold tier (R99, R273 to R281), input
queues and output frames (R103, R199, R200, R206, R284, R306), and the reflex lane (R330 to R332).
-/
namespace Sys2Proof.Machine

/-- PANRD: LEN units from the page to the staging store, through Pan port `pan` (R96). -/
def execPanrd (n pan : Nat) (s : State) : Out :=
  match startedOp s n (5 + pan) 4 with
  | none => .next s
  | some (p, o) =>
    let d := o.desc
    let (page, _) := pageBy s (s.part p) n pan (Dsc.pInd d) (Dsc.pPage d)
    match s.panFetch (page * pageBytes + 32 * Dsc.poff d) (32 * Dsc.pLen d) with
    | (none, s) => .next (s.killOp n o.id)
    | (some b, s) => .next ((s.ssWrite (262144 * n + 32 * Dsc.pSa d) b).workDone n (5 + pan) o)

/-- PANWR: LEN units from the staging store to the page, whose DIRTY is set (R96, R143). -/
def execPanwr (n pan : Nat) (s : State) : Out :=
  match startedOp s n (5 + pan) 5 with
  | none => .next s
  | some (p, o) =>
    let d := o.desc
    let (page, _) := pageBy s (s.part p) n pan (Dsc.pInd d) (Dsc.pPage d)
    match s.ssFetch n (32 * Dsc.pSa d) (32 * Dsc.pLen d) with
    | (none, s) => .next (s.killOp n o.id)
    | (some b, s) =>
      .next (((s.panWrite (page * pageBytes + 32 * Dsc.poff d) b).markDirty page).workDone n (5 + pan) o)

/-- The Pan page and unit that a MOVE names on one end, in cell m: its page slot and unit, or through a binding slot of the
issuing cell n (R98, R164). -/
def movePage (s : State) (x : Part) (n m pan addr : Nat) (ind : Bool) : Nat × Nat :=
  if ind then (Bnd.row (s.bindEntry n x.bset (addr % 65536)), 0) else (pageOf m pan (addr / 4096), addr % 4096)

/-- The data of a MOVE: LEN units of its source (R98). -/
def moveSource (s : State) (x : Part) (n : Nat) (d : Desc) : Option Bytes × State :=
  if Dsc.ssp d then
    let (page, unit) := movePage s x n n (Dsc.span d) (Dsc.saddr d) (Dsc.mInd d)
    s.panFetch (page * pageBytes + 32 * unit) (32 * Dsc.mLen d)
  else s.ssFetch n (32 * Dsc.saddr d) (32 * Dsc.mLen d)

/-- Writes the data of a MOVE in one destination cell (R98). -/
def moveWrite (s : State) (x : Part) (n m : Nat) (d : Desc) (b : Bytes) : State :=
  if Dsc.dsp d then
    let (page, unit) := movePage s x n m (Dsc.dpan d) (Dsc.daddr d) (Dsc.mInd d)
    (s.panWrite (page * pageBytes + 32 * unit) b).markDirty page
  else s.ssWrite (262144 * m + 32 * Dsc.daddr d) b

/-- MOVE: unicast, broadcast to every cell of the rectangle, or page copy (R62 to R69, R98). -/
def execMove (n : Nat) (s : State) : Out :=
  match startedOp s n 13 7 with
  | none => .next s
  | some (p, o) =>
    let d := o.desc
    let x := s.part p
    match moveSource s x n d with
    | (none, s) => .next (s.killOp n o.id)
    | (some b, s) => .next (((moveDests x n d).foldl (fun s m => moveWrite s x n m d b) s).workDone n 13 o)

/-- COLD: floods the Pan page from the cold page, or harvests it to the cold page under the key of R274; a harvest waits
for the acknowledgement of its writes (R99, R113, R274, R278, R280). -/
def execCold (n : Nat) (s : State) : Out :=
  match startedOp s n 13 8 with
  | none => .next s
  | some (p, o) =>
    let d := o.desc
    let x := s.part p
    let (page, _) := pageBy s x n (Dsc.cPan d) (Dsc.cInd d) (Dsc.ppage d)
    let b := s.bindEntry n x.bset (Dsc.cslot d)
    let cp := Bnd.coldPage b
    let key := s.coldKeyOf x.tenant (x.ctx (Bnd.coldCtx b)).key cp
    if Dsc.dir d then
      match s.panFetch (page * pageBytes) pageBytes, key with
      | (some data, s), some k =>
        let s := s.coldStore k (coldAddr cp) data
        let s := s.onDchan (coldChan cp) (fun c => { c with writes := c.writes ++ [(n, o.id)] })
        .next ((s.noteHarvest p cp).workDone n 13 o)
      | (_, s), _ => .next (s.killOp n o.id)
    else
      match s.coldFetch key cp p with
      | (none, s) => .next (s.killOp n o.id)
      | (some data, s) => .next (((s.panWrite (page * pageBytes) data).markDirty page).workDone n 13 o)

-- Input queues.

/-- The queue of a reflex partition that a REFLEX entry names (R330). -/
def isReflexQueue (s : State) (p q : Nat) : Bool :=
  (s.part p).reflex && (s.findStream (fun e => e.kind == 3 && e.part == p && e.chan == q)).isSome

/-- The next DATA entry of an input queue that no STRIN of the step has taken (R284). -/
def InChan.nextData (c : InChan) : Option LogEntry :=
  c.entries.find? (fun e => !e.used && !e.taken && Fr.typ e.frame == 5)

/-- Writes a payload to the staging store, bytes beyond MAXB left out and the truncation recorded (R103). -/
def strinWrite (s : State) (n p : Nat) (d : Desc) (payload : Bytes) : State :=
  let s := s.ssWrite (262144 * n + 32 * Dsc.sSa d) (payload.take (Dsc.lenb d))
  if payload.length > Dsc.lenb d then s.onPart p (fun x => { x with rep := { x.rep with trunc := true } }) else s

/-- STRIN: takes the payload of the next frame of the queue, read from its log ring; on an empty queue it waits (R103, R284, R330). An
entry whose codewords fail correction delivers no data, and the operation makes no further progress (R278, log 155). -/
def execStrin (n : Nat) (s : State) : Out :=
  match startedOp s n 13 0x0B with
  | none => .next s
  | some (p, o) =>
    let d := o.desc
    let x := s.part p
    let q := Bnd.queue (s.bindEntry n x.bset (Dsc.sslot d))
    if isReflexQueue s p q then
      match Sp.get [] s.reflexq q with
      | [] => .next s
      | r :: rest =>
        let s := { s with
          reflexq := Sp.set [] s.reflexq q rest
          reflexCur := Sp.set none s.reflexCur q (some r) }
        .next (((strinWrite s n p d r.payload).workDone n 13 o).progress p)
    else
      let f := partFn p
      match ((s.fn f).in_ q).nextData with
      | none => .next s
      | some e =>
        match s.ringRangeOk ((s.fn f).in_ q).ring (64 * e.pos) (64 * e.units) with
        | (false, s) => .next (s.killOp n o.id)
        | (true, s) =>
          let s := s.onIn f q (fun c => { c with
            entries := c.entries.map (fun t => if t.pos = e.pos then { t with taken := true } else t) })
          .next (((strinWrite s n p d (Fr.payload e.frame)).workDone n 13 o).progress p)

-- Output frames.

/-- The END flag that ENDSEL gives a payload (R200); a reserved STOP value acts as NONE (R14, R205). -/
def endFlag (endsel : Nat) (payload : Bytes) : Bool :=
  match endsel with
  | 1 => true
  | 2 => 1 ≤ u8 payload 0x0C && u8 payload 0x0C ≤ 5
  | _ => false

/-- The free value between the last tick's boundaries that a port-to-port time in ns takes: the model's time advances in
ticks of 10 ns (R125, log 26). -/
def reflexNs (ticks free : Nat) : Nat := sat32 (10 * ticks - 9 + free % 19)

/-- The answer of a reflex request, sent on the request's port (R331, R332). -/
def reflexAnswer (s : State) (p i : Nat) (e : StreamEntry) (q ctx : Nat) (payload : Bytes) : State :=
  match Sp.get none s.reflexCur q with
  | none => s
  | some r =>
    let late := decide (s.now > r.tick + 100)
    if late && e.discardLate then s
    else
      let open_ := e.reflexDl.contains (r.tick + 100)
      let fr := Fr.header 7 1 q ctx 8 e.answers payload.length r.seq ++ payload
      match s.transmit r.port with
      -- the answer cannot be sent: its first bit never leaves, and the deadline stays armed (R321, R328)
      | none => s.setStream i (some { e with answers := wrap64 (e.answers + 1) })
      | some (pn, s) =>
        let s := s.setStream i (some { e with answers := wrap64 (e.answers + 1), reflexDl := dropOne (r.tick + 100) e.reflexDl })
        let s := s.out (.stream r.port r.ethSrc r.vlan r.srcIp r.srcPort e.udp fr pn)
        let (v, s) := s.draw
        let ns := reflexNs (s.now - r.tick) v
        let s := s.onSport r.port (fun x => { x with reflexLast := ns, reflexMax := max x.reflexMax ns })
        if !late then s
        else
          let s := s.onSport r.port (fun x => { x with reflexLate := sat32 (x.reflexLate + 1) })
          -- a deadline that STREAM_DEADLINE_EXPIRY has judged is not missed twice (R127)
          if open_ then s.raiseMiss p 6 6 i (sat32 (s.now - (r.tick + 100))) else s

/-- Hands one frame of a STROUT to egress; it is a frame of the request that its slot serves (R129, R186, R199, R200, R206, R301). -/
def stroutFrame (s : State) (n p slot : Nat) (b : Bnd.Entry) (payload : Bytes) : State :=
  let x := s.part p
  let f := partFn p
  let ch := Bnd.chan b
  let oc := (s.fn f).out ch
  let key := n * 65536 + slot
  let k := Sp.get 0 x.outTaken key
  let seq := wrap64 (extend32 oc.next (Bnd.seq b) + k)
  let dueTick := Bnd.due b + k * Bnd.interval b
  let dueLate := Bnd.due b != 0 && decide (dueTick < s.now)
  let stepLate := x.armed && decide (x.dl < s.now)
  let end_ := endFlag (Bnd.endsel b) payload
  let (pl, fl) := latePolicy oc (dueLate || stepLate) payload
  let fr : OutFrame := {
    typ := 7, chan := ch, ctx := Bnd.octx b, flags := b2n end_ + fl, seq := seq, payload := pl }
  let s := (s.onFn f (fun y => y.setOut ch { oc with next := max oc.next (wrap64 (seq + 1)) })).push f fr
  let req := x.slotRequest slot
  let s := s.setPart p { x with
    outTaken := Sp.set 0 x.outTaken key (k + 1)
    rep := { x.rep with nOut := x.rep.nOut + 1, nLate := x.rep.nLate + b2n (dueLate || stepLate) } }
  match req with
  | none => s
  | some r =>
    let s := if dueLate then s.requestMiss p r else s
    s.onPart p (fun x => { x with reqs := x.reqs.map (fun q =>
      if q.chan = r.chan ∧ q.reqSeq = r.reqSeq then { q with sent := q.sent + 1, endSent := q.endSent || end_ } else q) })

/-- STROUT: sends LENB bytes as one frame payload; it waits while the function's egress has no room, and in the reflex
partition it sends an answer (R103, R113, R199, R306, R331). -/
def execStrout (n : Nat) (s : State) : Out :=
  match startedOp s n 13 0x0C with
  | none => .next s
  | some (p, o) =>
    let d := o.desc
    let slot := Dsc.sslot d
    let b := s.bindEntry n (s.part p).bset slot
    let ch := Bnd.chan b
    let ans := if (s.part p).reflex then s.findStream (fun e => e.kind == 3 && e.part == p && e.chan == ch) else none
    let need := roundUp (48 + Dsc.lenb d) 64
    -- the requests of a failed partition have ended, each with its one END frame (R206, R473)
    if (s.part p).failed then .next s
    else if ans.isNone && decide ((s.fn (partFn p)).egressBytes + need > egressLimit) then .next s
    else
      match s.ssFetch n (32 * Dsc.sSa d) (Dsc.lenb d) with
      | (none, s) => .next (s.killOp n o.id)
      | (some payload, s) =>
        let s := match ans with
          | some (i, e) => reflexAnswer s p i e ch (Bnd.octx b) payload
          | none => stroutFrame s n p slot b payload
        .next ((s.workDone n 13 o).progress p)

end Sys2Proof.Machine
end

