-- ==== Sys2Proof/Machine/Lanes.lean ====
section
/-!
DEFINITION. The decode lanes (R163 to R181): GATHER in modes ATTN and MATVEC, with query records, row records, appends and
trailers, and the lane faults of R179.
-/
namespace Sys2Proof.Machine

namespace Lane

open Arith

/-- Byte ranges, offset and length, of entry τ within one part of a tile (R166). -/
def spans (fmt d t : Nat) : List (Nat × Nat) :=
  let w := elemBits fmt
  if isMx fmt then
    let nb := d / 32
    [(t * nb, nb), (32 + 4 * w * nb * t, 4 * w * nb)]
  else [(t * (d * w / 8), d * w / 8)]

/-- Values of entry τ of one part (R26, R166). -/
def entryValues (fmt d t : Nat) (part : Bytes) : List Val :=
  let w := elemBits fmt
  if isMx fmt then
    (List.range (d / 32)).flatMap (fun j =>
      let b := t * (d / 32) + j
      (Vec.unpackBits w 32 (slice part (32 + 4 * w * b) (4 * w))).map (mxValue fmt (u8 part b)))
  else (Vec.unpackBits w d (slice part (t * (d * w / 8)) (d * w / 8))).map (valueOf fmt)

/-- Bytes with a range replaced. -/
def replaceAt (b : Bytes) (off : Nat) (new : Bytes) : Bytes := b.take off ++ new ++ b.drop (off + new.length)

/-- A tile with entry τ taken from entry 0 of another tile, in both parts (R172). -/
def appendEntry (fmt d t : Nat) (tile new : Bytes) : Bytes :=
  let half := 16 * tileUnits fmt
  [0, half].foldl (fun b p =>
    ((spans fmt d 0).zip (spans fmt d t)).foldl (fun b e =>
      replaceAt b (p + e.2.1) (slice new (p + e.1.1) e.1.2)) b) tile

/-- The running state of a query row (R170). -/
structure Row where
  m : Nat
  l : Nat
  nkeys : Nat
  nan : Bool
  o : List Nat
  deriving DecidableEq, Repr

def exp32 (x : Nat) : Nat × Flags := elementary 0 x

/-- attend_tile of R173, for the attended entries of a tile: their keys and values. -/
def attendTile (q : List Val) (d c scale : Nat) (r : Row) (es : List (List Val × List Val)) : Row × Flags :=
  if es.isEmpty || r.nan then (r, {})
  else
    let sc := es.map (fun e =>
      let (x, f) := dotF 0 (pieces c (q.zip e.1))
      let (y, g) := mul .rne x scale
      ((y, e.2), f.or g))
    let fl := Flags.all (sc.map (·.2))
    let ss := sc.map (·.1)
    -- a NaN or +∞ score makes the row NaN; the tile's updates happen all the same (R173, R175, log 77)
    let hot := ss.any (fun e => (decode fp32 e.1).isNan || e.1 == inf32 false)
    let live := ss.filter (fun e => e.1 != inf32 true)
    match live with
      | [] => (r, fl)
      | e0 :: rest =>
        let mb := rest.foldl (fun a e => fmax a e.1) e0.1
        let mn := fmax r.m mb
        let (dm, f1) := sub .rne r.m mn
        let (alpha, f2) := exp32 dm
        let ps := live.map (fun e =>
          let (x, f) := sub .rne e.1 mn
          let (y, g) := exp32 x
          ((y, e.2), f.or g))
        let (sum, f3) := ps.foldl (fun (a : Nat × Flags) p =>
          let (x, f) := add .rne a.1 p.1.1
          (x, (a.2.or f).or p.2)) (0, {})
        let (la, f4) := mul .rne r.l alpha
        let (l, f5) := add .rne la sum
        let os := (List.range d).map (fun j =>
          let (u, g1) := chunkF (ps.map (fun p => (decode fp32 p.1.1, p.1.2.getD j (.fin false 0 0))))
          let (oa, g2) := mul .rne (r.o.getD j 0) alpha
          let (x, g3) := add .rne oa u
          (x, (g1.or g2).or g3))
        let o := os.map (·.1)
        let bad := hot || (decode fp32 l).isNan || o.any (fun x => (decode fp32 x).isNan)
        let fl := Flags.all [fl, f1, f2, f3, f4, f5, Flags.all (os.map (·.2)), { nv := bad }]
        ({ m := mn, l := l, nkeys := sat32 (r.nkeys + live.length), nan := bad, o := o }, fl)

/-- finalise of R174: LSE, OUT, and EMPTY_ROW. -/
def finalise (d : Nat) (r : Row) : (Nat × List Nat × Bool) × Flags :=
  if r.nan then ((nan32, List.replicate d nan32, false), {})
  else if r.nkeys = 0 then ((inf32 true, List.replicate d 0, true), {})
  else
    let (lg, f) := elementary 2 r.l
    let (lse, g) := add .rne r.m lg
    let os := r.o.map (fun x => div .rne x r.l)
    ((lse, os.map (·.1), false), Flags.all ([f, g] ++ os.map (·.2)))

/-- The bytes of a row record after a GATHER; ROWTAG is kept (R170). -/
def rowRecord (dcode : Nat) (tag : Bytes) (r : Row) (fin : Nat × List Nat × Bool) : Bytes :=
  le 4 r.m ++ le 4 r.l ++ le 4 fin.1 ++ le 4 r.nkeys ++ le 4 (b2n fin.2.2 + 2 * b2n r.nan) ++ tag ++ le 1 dcode ++ zeros 7
    ++ fin.2.1.flatMap (le 4) ++ r.o.flatMap (le 4)

/-- A lane operation on one sequence: where its faults are charged (R179). -/
structure At where
  p : Nat
  n : Nat
  lane : Nat
  slot : Nat
  id : Nat
  deriving DecidableEq, Repr

/-- Raises DECODE_LANE (R179, R467). -/
def fault (s : State) (a : At) (page : Option Nat) (reason : Nat) : State :=
  (s.killOp a.n a.id).raiseStop 5 reason 3 1 a.p (locPan (page.getD 0x1FFFF) 0) (a.n + 2 ^ 10 * a.lane + 2 ^ 12 * a.slot)

/-- The page that a slot names: nothing, a page that passes R147, or the PAGE_ACCESS fault (R147, R164, R179). -/
def slotPage (s : State) (a : At) (attn : Bool) : Except State (Option (Nat × Bool)) :=
  let b := s.bindEntry a.n (s.part a.p).bset a.slot
  if Bnd.typ b ≠ 1 then .ok none
  else
    let row := Bnd.row b
    let write := attn && Bnd.mode b && Pte.kind (s.pte row) == Pte.kv
    match pageReason s a.p a.n a.lane row (some b) write with
    | some r => .error (pageFault s a.p a.n a.lane row r 6 a.id)
    | none => .ok (some (row, write))

/-- Positions after a sequence: query unit and output unit. -/
abbrev Pos := Nat × Nat

/-- Reads staging bytes of the cell, or stops. -/
def ssBytes (s : State) (n unit units : Nat) : Except State (Bytes × State) :=
  match s.ssFetch n (32 * unit) (32 * units) with
  | (none, s) => .error s
  | (some b, s) => .ok (b, s)

def panBytes (s : State) (page unit units : Nat) : Except State (Bytes × State) :=
  match s.panFetch (page * pageBytes + 32 * unit) (32 * units) with
  | (none, s) => .error s
  | (some b, s) => .ok (b, s)

/-- The query record's header (R169). -/
structure Query where
  pos : Nat
  wlo : Nat
  scale : Nat
  recu : Nat
  nrow : Nat
  dcode : Nat
  masked : Bool
  deriving DecidableEq, Repr

def query (h : Bytes) : Query :=
  { pos := u32 h 0, wlo := u32 h 4, scale := u32 h 8, recu := u16 h 0x0C, nrow := u8 h 0x0E + 1, dcode := u8 h 0x0F,
    masked := (u8 h 0x10).testBit 0 }

/-- Units of a query row (R169), of the rows and masks with the header, and of a row record (R170). -/
def queryUnits (qfmt d : Nat) : Nat := d * elemBits qfmt / 256
def recordUnits (q : Query) (qfmt d : Nat) : Nat :=
  1 + q.nrow * queryUnits qfmt d + (if q.masked then (q.nrow + 3) / 4 else 0)
def rowUnits (d : Nat) : Nat := 1 + d / 4

/-- Units of a tile that entry τ lies in, and those of them that it shares with other entries (R166, R172). -/
def entryUnits (fmt d t : Nat) : List Nat :=
  ([0, 16 * tileUnits fmt].flatMap (fun p => (spans fmt d t).flatMap (fun e =>
    range2 ((p + e.1) / 32) ((p + e.1 + e.2 - 1) / 32)))).eraseDups
def sharedUnits (fmt d t : Nat) : List Nat :=
  (entryUnits fmt d t).filter (fun u => !(List.any [0, 16 * tileUnits fmt] (fun p => (spans fmt d t).any (fun e =>
    decide (p + e.1 ≤ 32 * u) && decide (32 * u + 32 ≤ p + e.1 + e.2)))))

/-- The append of R172: the units of the new entry are written, those that it shares with other entries after a read; the state after it
and the trailer's COUNT and FIRST_POS, or the fault's reason. -/
def append (s : State) (page fmt d : Nat) (q : Query) (count first : Nat) (new : Bytes) :
    Except (State × Option Nat) (State × Nat × Nat) :=
  let slot := if count = 0 then 0 else q.pos - first
  if count > 0 ∧ (q.pos < first ∨ slot > count) then .error (s, some 7)
  else if slot ≥ capacity fmt d then .error (s, some 8)
  else
    let te := tileEntries d
    let tu := tileUnits fmt
    let tile := slot / te * tu
    match (sharedUnits fmt d (slot % te)).foldlM (fun (s : State) u => (panBytes s page (tile + u) 1).map (·.2)) s with
    | .error s => .error (s, none)
    | .ok s =>
      let base := page * pageBytes + 32 * tile
      let merged := appendEntry fmt d (slot % te) (Memory.read s.mem.pan base (32 * tu)) new
      let s := (entryUnits fmt d (slot % te)).foldl (fun s u => s.panWrite (base + 32 * u) (slice merged (32 * u) 32)) s
      let first' := if count = 0 then q.pos else first
      let count' := max count (slot + 1)
      match panBytes s page 4080 1 with
      | .error s => .error (s, none)
      | .ok (tr, s) =>
        let tr := le 4 count' ++ le 4 first' ++ le 1 (if count = 0 then q.dcode else u8 tr 8) ++ tr.drop 9
        .ok ((s.panWrite (page * pageBytes + 32 * 4080) tr).markDirty page, count', first')

/-- The attended entries of a query row (R171). A position FIRST_POS + e is the sum as it stands: whether it wraps above 2^32 - 1 the
spec does not state (R168, log 145). -/
def attended (kv : Bool) (q : Query) (count first cap mask : Nat) : List Nat :=
  if kv then (List.range count).filter (fun e => decide (q.wlo ≤ first + e) && decide (first + e ≤ q.pos))
  else if q.masked then (List.range (min 64 cap)).filter mask.testBit else []

/-- All rows of a sequence over the page's tiles (R173, R174): the row records and the flags. -/
def rows (q : Query) (qfmt d : Nat) (page : Option (Nat × Bool)) (count first : Nat) (tiles : Bytes) (rec : Bytes)
    (old : Bytes) : List Bytes × Flags :=
  let fmt := match page with | some (f, _) => f | none => 0
  let kv := match page with | some (_, k) => k | none => false
  let qu := queryUnits qfmt d
  let tu := 32 * tileUnits fmt
  let te := tileEntries d
  let c := chunkLen qfmt fmt
  let r := (List.range q.nrow).map (fun g =>
    let qrow := (Vec.unpackBits (elemBits qfmt) d (slice rec (32 * (1 + g * qu)) (32 * qu))).map (valueOf qfmt)
    let mask := u64 rec (32 * (1 + q.nrow * qu) + 8 * g)
    let att := match page with
      | none => []
      | some _ => attended kv q count first (capacity fmt d) mask
    let o := slice old (32 * g * rowUnits d) (32 * rowUnits d)
    let start : Row := {
      m := u32 o 0, l := u32 o 4, nkeys := u32 o 12, nan := (u32 o 16).testBit 1
      o := (List.range d).map (fun j => u32 o (32 * (1 + d / 8) + 4 * j)) }
    let ts := (att.map (· / te)).eraseDups
    let (row, f) := ts.foldl (fun (a : Row × Flags) ti =>
      let part := slice tiles (ti * tu) tu
      let es := (att.filter (fun e => e / te == ti)).map (fun e =>
        (entryValues fmt d (e % te) (part.take (tu / 2)), entryValues fmt d (e % te) (part.drop (tu / 2))))
      let (r, f) := attendTile qrow d c q.scale a.1 es
      (r, a.2.or f)) (start, {})
    let (fin, g') := finalise d row
    (rowRecord q.dcode (slice o 20 4) row fin, f.or g'))
  (r.map (·.1), Flags.all (r.map (·.2)))

/-- One sequence of a GATHER with MODE ATTN (R164, R169 to R179). -/
def attnSeq (s : State) (a : At) (qfmt osa : Nat) (at_ : Pos) : Except State (Pos × State) := do
  let page ← slotPage s a true
  let row := page.map (·.1)
  if at_.1 ≥ osa then throw (fault s a row 2)
  let (h, s) ← ssBytes s a.n at_.1 1
  let q := query h
  if q.dcode = 0 ∨ 4 < q.dcode ∨ u8 h 0x10 ≥ 2 ∨ !allZero h 0x11 15 then throw (fault s a row 1)
  let d := headDim q.dcode
  let e := s.pte (row.getD 0)
  let fmt := Pte.fmt e
  let kv := Pte.kind e == Pte.kv
  let app := match page with | some (_, w) => w | none => false
  let need := recordUnits q qfmt d
  if q.recu < need + (if app then tileUnits fmt else 0) then throw (fault s a row 1)
  let outUnits := q.nrow * rowUnits d
  if at_.1 + q.recu > osa ∨ at_.2 + outUnits > 8192 then throw (fault s a row 2)
  if page.isSome && !(Pte.kind e == Pte.kv || Pte.kind e == Pte.scratch) then throw (fault s a row 3)
  if (page.isSome && !kvFmt fmt) || !queryFmt qfmt then throw (fault s a row 4)
  let (rec, s) ← ssBytes s a.n at_.1 q.recu
  let (old, s) ← ssBytes s a.n at_.2 outUnits
  match page with
  | none =>
    let (rs, f) := rows q qfmt d none 0 0 [] rec old
    return ((at_.1 + q.recu, at_.2 + outUnits), (s.ssWrite (262144 * a.n + 32 * at_.2) rs.flatten).addFlags a.p f)
  | some (pg, _) =>
    let cap := capacity fmt d
    if kv then
      let (tr, s) ← panBytes s pg 4080 1
      let count := u32 tr 0
      -- the capacity is that of the page's own entries (R167, R168)
      if count > capacity fmt (headDim (u8 tr 8)) ∨ u8 tr 8 > 4 then throw (fault s a row 5)
      if count > 0 ∧ u8 tr 8 ≠ q.dcode then throw (fault s a row 6)
      let (s, count, first) ← (if app then
          match append s pg fmt d q count (u32 tr 4) (slice rec (32 * need) (32 * tileUnits fmt)) with
          | .ok r => Except.ok r
          | .error (s, some r) => .error (fault s a row r)
          | .error (s, none) => .error s
        else .ok (s, count, u32 tr 4))
      let nt := (count + tileEntries d - 1) / tileEntries d
      let (tiles, s) ← panBytes s pg 0 (nt * tileUnits fmt)
      let (rs, f) := rows q qfmt d (some (fmt, true)) count first tiles rec old
      return ((at_.1 + q.recu, at_.2 + outUnits), (s.ssWrite (262144 * a.n + 32 * at_.2) rs.flatten).addFlags a.p f)
    else
      let nt := if q.masked then (min 64 cap + tileEntries d - 1) / tileEntries d else 0
      let (tiles, s) ← panBytes s pg 0 (nt * tileUnits fmt)
      let (rs, f) := rows q qfmt d (some (fmt, false)) 0 0 tiles rec old
      return ((at_.1 + q.recu, at_.2 + outUnits), (s.ssWrite (262144 * a.n + 32 * at_.2) rs.flatten).addFlags a.p f)

/-- The MATVEC record's header (R180). -/
structure Mat where
  k : Nat
  nr : Nat
  wunit : Nat
  recu : Nat
  nvec : Nat
  acc : Bool
  deriving DecidableEq, Repr

def mat (h : Bytes) : Mat :=
  { k := u16 h 0, nr := u16 h 2, wunit := u16 h 4, recu := u16 h 6, nvec := u8 h 8 + 1, acc := (u8 h 9).testBit 0 }

/-- The outputs of one input vector (R180): NR words, over no chunks where no page is reached. -/
def matOutputs (m : Mat) (qfmt fmt : Nat) (weights : Option Bytes) (vec old : Bytes) : Bytes × Flags :=
  let x := Engine.rowValues qfmt m.k vec
  let wb := Engine.rowBytes fmt m.k
  let r := (List.range m.nr).map (fun i =>
    let start := if m.acc then u32 old (4 * i) else 0
    match weights with
    | none => (start, ({} : Flags))
    | some w => Engine.element (isInt fmt) (chunkLen qfmt fmt) start x (Engine.rowValues fmt m.k (slice w (i * wb) wb)))
  (r.flatMap (fun e => le 4 e.1) ++ old.drop (4 * m.nr), Flags.all (r.map (·.2)))

/-- One slot of a GATHER with MODE MATVEC (R164, R178 to R180). -/
def matvecSeq (s : State) (a : At) (qfmt osa : Nat) (at_ : Pos) : Except State (Pos × State) := do
  let page ← slotPage s a false
  let row := page.map (·.1)
  if at_.1 ≥ osa then throw (fault s a row 2)
  let (h, s) ← ssBytes s a.n at_.1 1
  let m := mat h
  let e := s.pte (row.getD 0)
  let fmt := Pte.fmt e
  let ru := Engine.rowBytes qfmt m.k / 32
  let wru := Engine.rowBytes fmt m.k / 32
  if m.k = 0 ∨ m.nr = 0 ∨ 4096 < m.nr ∨ 64 < m.nvec ∨ u8 h 9 ≥ 2 ∨ !allZero h 0x0A 22 ∨ m.recu < 1 + m.nvec * ru
      ∨ (page.isSome ∧ m.wunit + m.nr * wru > 4096) then throw (fault s a row 1)
  let ou := (m.nr + 7) / 8
  if at_.1 + m.recu > osa ∨ at_.2 + m.nvec * ou > 8192 then throw (fault s a row 2)
  if page.isSome && Pte.kind e != Pte.weight then throw (fault s a row 3)
  if !inputFmt qfmt || (page.isSome && (fmt == 0 || fmt == 8 || fmt == 15 || isInt fmt != isInt qfmt)) then
    throw (fault s a row 4)
  let (rec, s) ← ssBytes s a.n at_.1 m.recu
  let (old, s) ← ssBytes s a.n at_.2 (m.nvec * ou)
  let (w, s) ← (match row with
    | none => Except.ok (none, s)
    | some pg => (panBytes s pg m.wunit (m.nr * wru)).map (fun (b, s) => (some b, s)))
  let r := (List.range m.nvec).map (fun i =>
    matOutputs m qfmt fmt w (slice rec (32 * (1 + i * ru)) (32 * ru)) (slice old (32 * i * ou) (32 * ou)))
  return ((at_.1 + m.recu, at_.2 + m.nvec * ou),
    (s.ssWrite (262144 * a.n + 32 * at_.2) (r.flatMap (·.1))).addFlags a.p (Flags.all (r.map (·.2))))

/-- One sequence of a GATHER: its page is checked first (R147, R179), and a record that starts at or above OSA raises RANGE (R178). -/
def seqStep (s : State) (a : At) (d : Desc) (at_ : Pos) : Except State (Pos × State) :=
  if Dsc.gmode d = 0 then attnSeq s a (Dsc.qfmt d) (Dsc.osa d) at_
  else matvecSeq s a (Dsc.qfmt d) (Dsc.osa d) at_

/-- Units that the records of one sequence of a lower-ranked lane take, from its header alone (R164): as the staging store holds it, without
a check of its fields or its error bits, which the lane of that record makes (log 146). -/
def skip (s : State) (n : Nat) (d : Desc) (at_ : Pos) : Pos :=
  let h := Memory.read s.mem.ss (262144 * n + 32 * at_.1) 32
  if Dsc.gmode d = 0 then
    let q := query h
    (at_.1 + q.recu, at_.2 + q.nrow * rowUnits (headDim q.dcode))
  else
    let m := mat h
    (at_.1 + m.recu, at_.2 + m.nvec * ((m.nr + 7) / 8))

/-- The sequences of a lane, in ascending slot order (R164). -/
def sequences (p n lane id first : Nat) (d : Desc) : List Nat → Pos → State → Except State State
  | [], _, s => .ok s
  | i :: t, at_, s =>
    match seqStep s { p := p, n := n, lane := lane, slot := first + i, id := id } d at_ with
    | .error s => .error s
    | .ok (at', s) => sequences p n lane id first d t at' s

end Lane

/-- GATHER: the lane of rank k in LMASK serves the NSEQ slots from BSLOT + k × NSEQ; its records follow those of every
lower-ranked lane (R97, R164). A fault ends the operation and stops the partition (R148, R179). -/
def execGather (n lane : Nat) (s : State) : Out :=
  match startedOp s n (9 + lane) 6 with
  | none => .next s
  | some (p, o) =>
    let d := o.desc
    let x := s.part p
    let rank := ((List.range lane).filter (fun l => (Dsc.lmask d).testBit l)).length
    let start := (List.range (rank * Dsc.nseq d)).foldl (fun at_ _ => Lane.skip s n d at_) (Dsc.qsa d, Dsc.osa d)
    let first := Dsc.gslot d + rank * Dsc.nseq d
    -- the lane waits while a row of a page that its slots name is being copied (R139)
    if (List.range (Dsc.nseq d)).any (fun i =>
        let b := s.bindEntry n x.bset (first + i); Bnd.typ b == 1 && s.rowBusy (Bnd.row b * pageBytes) pageBytes) then .next s
    else match Lane.sequences p n lane o.id first d (List.range (Dsc.nseq d)) start s with
    | .error s => .next (s.killOp n o.id)
    | .ok s => .next (s.workDone n (9 + lane) o)

end Sys2Proof.Machine
end

