-- ==== Sys2Proof/Machine/Registers.lean ====
section
/-!
DEFINITION. Reads and writes of registers (R4 to R11, R293, R453): what a read returns and clears, and what a write does by the
register's access code. A register whose write has a row of its own acts here as that row does.
-/
namespace Sys2Proof.Machine

-- 64-bit quantities (R5).

/-- Key of the low half of a pair of BAR0. -/
def hpKey (h f off : Nat) : Nat := 2 ^ 60 + 2 ^ 20 * (17 * h + f) + off

/-- Reads a word of a 64-bit quantity: the low half latches the high half, and the next read of the high half returns it (R5). -/
def State.readLow (s : State) (key v : Nat) : State := { s with
  latch := Sp.set none s.latch key (some (hi32 v)), rdata := (lo32 v).toNat }
def State.readHigh (s : State) (key v : Nat) : State :=
  match Sp.get none s.latch key with
  | some w => { s with latch := Sp.set none s.latch key none, rdata := w.toNat }
  | none => { s with rdata := (hi32 v).toNat }

/-- A register of a window of the Dome map is read: a word of a pair, DIC_CLAIM, or a register with what reading it clears
(R5, R9, R11, R459). -/
def State.readWin (s : State) (w : Win) (addr off : Nat) : State :=
  match s.regPair w off with
  | some v => s.readLow addr v
  | none =>
    match (if 4 ≤ off then s.regPair w (off - 4) else none) with
    | some v => s.readHigh (addr - 4) v
    | none =>
      if w = .dic ∧ 0x800 ≤ off ∧ off < 0x900 ∧ off % 0x20 = 0 then
        let (v, s) := s.claim ((off - 0x800) / 0x20)
        { s with rdata := v }
      else { s.regClear w off with rdata := s.regValue w off % 2 ^ 32 }

/-- A 32-bit read by a Dome core: the containing word (R6, R7, R453). What the ROM and the Watchtower mailbox hold the spec does
not show: free values (log 17). The apertures take 8-byte accesses alone (R454, R455). -/
def State.readDome (s : State) (core addr : Nat) : State :=
  let a := addr / 4 * 4
  match region a with
  | .reg w off => s.readWin w a off
  | .memory off => { s with rdata := leNat (Memory.read s.mem.dome off 4) }
  | .rom => let (v, s) := s.draw; { s with rdata := v % 2 ^ 32 }
  | .mailbox => let (v, s) := s.draw; { s with rdata := v % 2 ^ 32 }
  | .aperture => s.domeAcc core addr false
  | .none => s.domeAcc core addr false

/-- A 32-bit read of BAR0: no read of it clears anything; the aperture and unassigned offsets return 0 (R7, R293). -/
def State.readHp (s : State) (h f off : Nat) : State :=
  let o := off / 4 * 4
  if h > 1 ∨ f > 16 then s
  else match s.hpPair h f o with
  | some v => s.readLow (hpKey h f o) v
  | none =>
    match (if 4 ≤ o then s.hpPair h f (o - 4) else none) with
    | some v => s.readHigh (hpKey h f (o - 4)) v
    | none => { s with rdata := s.hpReg h f o }

/-- A register read. -/
def State.readReg (s : State) (r : RegAddr) : State :=
  match r with
  | .dome core addr => if core > 7 then s else s.readDome core addr
  | .bar0 port func off => s.readHp port func off

/-- LOW_HALF_READ (R5). -/
def execLowHalfRead (r : RegAddr) (s : State) : Out := .next (s.readReg r)

/-- RC_READ: an increment in the same cycle is a command of its own, so none is lost (R11). -/
def execRcRead (r : RegAddr) (s : State) : Out := .next (s.readReg r)

-- Writes.

/-- A 64-bit quantity of a window is written (R201, R456, R463); only these pairs may be written. -/
def State.setPair (s : State) (w : Win) (off n : Nat) : State :=
  match w, off with
  | .pt c, 0x08 => s.onWin c (fun x => { x with pte := BitVec.ofNat 64 n })
  | .core, 0x20 => { s with dome := { s.dome with boot := n % 2 ^ 64 } }
  | .dic, o => s.onCore ((o - 0x800) / 0x20) (fun c => { c with timer := n % 2 ^ 64 })
  | _, _ => s

/-- The pair is of the access code RW, and its write has no row of its own. -/
def pairWritable (w : Win) (off : Nat) : Bool :=
  match w with
  | .pt _ => off == 0x08
  | .core => off == 0x20
  | .dic => true
  | _ => false

/-- The next state of a meaning that goes on. -/
def Out.orSelf (o : Out) (s : State) : State := match o with | .next t => t | _ => s

/-- SEQ_CTL: one of RELEASE, COMMIT and ABORT; more than one is discarded with CTL_IGN (R201, R202). -/
def State.writeSeqCtl (s : State) (p : Nat) (v : Word) : State :=
  match bit v 0, bit v 1, bit v 2 with
  | true, false, false => (execRelease p (fld v 4 4) (fld v 8 1) s).orSelf s
  | false, true, false => (execCommit p s).orSelf s
  | false, false, true => (execAbort p s).orSelf s
  | false, false, false => s
  | _, _, _ => s.ctlIgn p

/-- The SEQ window (R201): SEQ_CTL, SEQ_STAT, the list, the bind-write registers. -/
def State.writeSeq (s : State) (p off : Nat) (v : Word) : State :=
  let x := s.part p
  match off with
  | 0x00 => s.writeSeqCtl p v
  | 0x04 => s.setPart p { x with
      ctlIgn := x.ctlIgn && !bit v 8, bwIgn := x.bwIgn && !bit v 9, err := (w1c (word x.err) (word (fld v 4 4))).toNat }
  | 0x08 => s.setPart p { x with list := putFld x.list 0 32 v.toNat }
  | 0x0C => s.setPart p { x with list := putFld x.list 32 32 v.toNat }
  | 0x10 => (execSeqStepWrite p false v s).orSelf s
  | 0x14 => (execSeqStepWrite p true v s).orSelf s
  | 0x18 => s.setPart p { x with bwSlot := word (fld v 0 17) }
  | 0x1C => s.setPart p { x with bwCells := word (fld v 0 20) }
  | 0x2C => (execBindWrite p v s).orSelf s
  | _ => if 0x20 ≤ off then s.setPart p { x with bwE := Sp.set 0 x.bwE ((off - 0x20) / 4) v } else s

/-- The page-table window (R156, R159). -/
def State.writePt (s : State) (c off : Nat) (v : Word) : State :=
  match off with
  | 0x00 => s.onWin c (fun x => { x with row := fld v 0 17 })
  | 0x04 => ptStart s c (fld v 0 4) (bit v 16) (fld v 8 8)
  | 0x10 => s.onWin c (fun x => { x with cmdIgn := x.cmdIgn && !bit v 1 })
  | _ => s

/-- The global PWR window (R374); PWR_CAP_SET is the Watchtower's to write (R18, R374, log 121). -/
def State.writePwr (s : State) (off : Nat) (v : Word) : State :=
  match off with
  | 0x0C => { s with power := { s.power with stat := w1c s.power.stat v } }
  | _ => s

/-- A partition's PWR window (R375). -/
def State.writePwrPart (s : State) (p off : Nat) (v : Word) : State :=
  match off with
  | 0x00 => (execPwrPolWrite p v s).orSelf s
  | 0x04 => (execPwrTolWrite p v s).orSelf s
  | 0x08 => s.writePctl p v
  | 0x0C => s.onPart p (fun x => { x with pw := { x.pw with ev := w1c x.pw.ev v } })
  | 0x24 => s.onPart p (fun x => { x with pw := { x.pw with exit3 := v.toNat } })
  | _ => s

/-- The CLK window (R386); CLK_CTL is the Watchtower's to write (R18, R386, log 121). -/
def State.writeClk (s : State) (off : Nat) (v : Word) : State :=
  match off with
  | 0x04 => s.onClk (fun c => { c with stat := w1c c.stat v })
  | 0x10 => s.onClk (fun c => { c with fmcSel := word (fld v 0 22) })
  | 0x14 => s.onClk (fun c => { c with fmcWin := v })
  | 0x18 => (execStart v s).orSelf s
  | _ => s

/-- The enable bits of word `w` (R463): source 0 has none. -/
def setEnable (l : List Nat) (w : Nat) (v : Word) : List Nat :=
  l.filter (fun k => decide (k / 32 ≠ w)) ++ ((List.range 32).filter (fun i => bit v i && 32 * w + i != 0)).map (32 * w + ·)

/-- The DIC window (R460, R463). -/
def State.writeDic (s : State) (off : Nat) (v : Word) : State :=
  if off < 0x20 then { s with dome := { s.dome with enable := setEnable s.dome.enable (off / 4) v } }
  else if 0x404 ≤ off ∧ off < 0x800 then
    { s with dome := { s.dome with target := Sp.set 0 s.dome.target ((off - 0x400) / 4) (fld v 0 8) } }
  else if 0x800 ≤ off ∧ off < 0x900 then
    let c := (off - 0x800) / 0x20
    (match off % 0x20 with
    | 0x04 => (execDicComplete c v s).orSelf s
    | 0x08 => s.onCore c (fun x => { x with compIgn := x.compIgn && !bit v 10 })
    | 0x0C => (execDicSoftWrite c v s).orSelf s
    | _ => s)
  else s

/-- The core control window; DOME_KICK acts for the core that writes (R456). -/
def State.writeCore (s : State) (core off : Nat) (v : Word) : State :=
  match off with
  | 0x28 => (execDomeStart v s).orSelf s
  | 0x2C => (execDomeFail v s).orSelf s
  | 0x30 => (execDomeKick core s).orSelf s
  | 0x34 => { s with dome := { s.dome with startIgn := s.dome.startIgn && !bit v 0 } }
  | 0x40 => { s with dome := { s.dome with accStat := w1c s.dome.accStat v } }
  | _ => s

/-- A write to a register that is no half of a pair without a row of its own: by its access code (R8, R9). -/
def State.writeValue (s : State) (core : Nat) (w : Win) (off : Nat) (v : Word) : State :=
  match w with
  | .cell n => if off = 0x0C then s.onCell n (fun c => { c with stat := w1c c.stat v }) else s
  | .pan n => if off = 0x04 then s.onPan n (fun x => { x with stat := w1c x.stat v }) else s
  | .ptm p =>
    (match off with
    | 0x08 => (execPtmDlWrite p false v s).orSelf s
    | 0x0C => (execPtmDlWrite p true v s).orSelf s
    | 0x18 => s.onPart p (fun x => { x with ptmStat := w1c x.ptmStat v })
    | _ => s)
  | .seq p => s.writeSeq p off v
  | .pt c => s.writePt c off v
  | .vid k => if off = 0x04 then s.onVpair k (fun x => { x with stat := w1c x.stat v }) else s
  | .ddr c =>
    (match off with
    | 0x00 => (execDdrOwnWrite c v s).orSelf s
    | 0x04 => s.onDchan c (fun x => { x with stat := w1c x.stat v })
    | 0x10 => s.onDchan c (fun x => { x with ceLim := fld v 0 16 })
    | _ => s)
  | .stp i => if off = 0x04 then s.onSport i (fun x => { x with stat := w1c x.stat v }) else s
  | .pwr => s.writePwr off v
  | .clk => s.writeClk off v
  | .bru => s
  | .pwrPart p => s.writePwrPart p off v
  | .pwrQueue => s
  | .dic => s.writeDic off v
  | .core => s.writeCore core off v

/-- A register of a window of the Dome map is written: the low half of a pair is buffered, and the high half commits both (R5). -/
def State.writeWin (s : State) (core : Nat) (w : Win) (addr off : Nat) (v : Word) : State :=
  let low := (s.regPair w off).isSome && pairWritable w off
  let high := decide (4 ≤ off) && (s.regPair w (off - 4)).isSome && pairWritable w (off - 4)
  if low then s.bufLow addr v
  else if high then
    let (n, s') := s.commitHigh (addr - 4) ((s.regPair w (off - 4)).getD 0) v
    s'.setPair w (off - 4) n
  else s.writeValue core w off v

/-- A write by a Dome core: of 32 bits to a register; a narrower one is discarded (R6). Dome memory takes every width; the ROM
and the Watchtower mailbox, whose layout the spec does not show, take none (R453). -/
def State.writeDome (s : State) (core addr width : Nat) (v : Word) : State :=
  match region addr with
  | .reg w off => if width < 32 then s else s.writeWin core w (addr / 4 * 4) (off / 4 * 4) v
  | .memory off => s.domeWrite off (le (min 4 (width / 8)) v.toNat)
  | .rom => s
  | .mailbox => s
  | .aperture => s.domeAcc core addr true
  | .none => s.domeAcc core addr true

/-- A word of the MSI-X table is written; a vector that is unmasked with its pending bit set is signalled (R293, R308, PCIe). -/
def State.writeMsix (s : State) (h f i : Nat) (v : Word) : State := (s.onHp h f (fun x => x.setMsix i v)).unmask h f

/-- The registers of BAR0 (R293): HP_RING_BASE, HP_RING_SIZE and HP_STATUS take no write while RING_EN is 1. -/
def State.writeHp (s : State) (h f off : Nat) (v : Word) : State :=
  let x := s.hp h f
  let en := bit x.ctl 0
  let pair (lo cur keep : Nat) (set : Nat → HostPort → HostPort) : State :=
    if en then s
    else if off = lo then s.bufLow (hpKey h f lo) v
    else
      let (n, s) := s.commitHigh (hpKey h f lo) cur v
      s.onHp h f (set (n / 2 ^ keep * 2 ^ keep))
  match off with
  | 0x08 => s.setHp h f { x with stat := w1c x.stat v }
  | 0x0C => (execRingEnWrite h f v s).orSelf s
  | 0x10 => (execHpApReset h f s).orSelf s
  | 0x20 => pair 0x20 x.base 12 (fun n x => { x with base := n })
  | 0x24 => pair 0x20 x.base 12 (fun n x => { x with base := n })
  | 0x28 => if !en && 16 ≤ fld v 0 5 && fld v 0 5 ≤ 28 then s.setHp h f { x with size := fld v 0 5 } else s
  | 0x2C => (execHpRingHeadWrite h f v s).orSelf s
  | 0x34 => pair 0x34 x.statusAddr 6 (fun n x => { x with statusAddr := n })
  | 0x38 => pair 0x34 x.statusAddr 6 (fun n x => { x with statusAddr := n })
  | 0x3C => (s.setHp h f { x with irqMod := v }).ringJudge h f
  | _ => if 0x2000 ≤ off ∧ off < 0x2040 then s.writeMsix h f ((off - 0x2000) / 4) v else s

/-- REGISTER_WRITE (R4 to R10). -/
def execRegisterWrite (r : RegAddr) (width : Nat) (v : Word) (s : State) : Out :=
  match r with
  | .dome core addr => .next (if core > 7 then s else s.writeDome core addr width v)
  | .bar0 port func off => .next (if port > 1 ∨ func > 16 ∨ width < 32 then s else s.writeHp port func (off / 4 * 4) v)

end Sys2Proof.Machine
end

