-- ==== Sys2Proof/Machine/Watchdog.lean ====
section
/-!
DEFINITION. The stall watchdog of a partition (R123, R124): when its count is suspended, and the STALL.
-/
namespace Sys2Proof.Machine

/-- The input queue holds no frame for a STRIN (R103, R284, R330). -/
def State.queueEmpty (s : State) (p q : Nat) : Bool :=
  if isReflexQueue s p q then (Sp.get [] s.reflexq q).isEmpty else ((s.fn (partFn p)).in_ q).nextData.isNone

/-- The function's egress has no room for a frame of `len` bytes, because its head waits for a ring that is full or not enabled, for its
channel or for a session; an answer of the reflex partition needs no egress (R306, R331). -/
def State.egressHolds (s : State) (p len chan : Nat) : Bool :=
  let f := partFn p
  let answer := (s.part p).reflex && (s.findStream (fun e => e.kind == 3 && e.part == p && e.chan == chan)).isSome
  !answer && decide ((s.fn f).egressBytes + roundUp (48 + len) 64 > egressLimit)
    && (List.range 2).any (fun h => (s.ringWaits h f).isSome)

/-- A STRIN that waits on an empty queue, or a STROUT that waits for egress space, suspends the watchdog (R123): a started STRIN
whose queue holds no frame to take, or a started STROUT whose frame the function's egress has no room for. -/
def streamWaits (s : State) (p : Nat) : Bool :=
  let x := s.part p
  x.cells.any (fun n => (s.cell n).ops.any (fun o =>
    o.started.contains 13 && !o.worked.contains 13 && !o.dead &&
      let b := s.bindEntry n x.bset (Dsc.sslot o.desc)
      ((Dsc.opc o.desc == 11 && s.queueEmpty p (Bnd.queue b))
        || (Dsc.opc o.desc == 12 && s.egressHolds p (Dsc.lenb o.desc) (Bnd.chan b)))))

/-- The watchdog's limit in ticks (R124). -/
def stallTicks : Nat := 5000

/-- STALL: the count has reached 5,000 ticks; the partition stops, and the record holds the BID of the oldest pending
barrier and the lowest-numbered cell with an operation issued and not completed (R124). A barrier that has completed and is still
released block by block is not pending; with no barrier pending the BID is 0, which R124 does not state, as it does not state the
cell where none holds an operation: the first of the partition (log 142). -/
def execStall (p : Nat) (s : State) : Out :=
  let x := s.part p
  if x.st == .released ∧ stallTicks ≤ x.quiet ∧ !streamWaits s p then
    let holds (n : Nat) : Bool := !(s.cell n).ops.isEmpty
      || (s.cell n).segBuf.any (fun e => e.2.any (fun d => Dsc.selects d (x.relRow n) (x.relCol n)))
    let n := (x.cells.filter holds).foldl (fun a n => min a n) 1024
    let n := if n = 1024 then x.cells.headD 0 else n
    let bid := match x.barriers.find? (fun b => !b.done) with | some b => b.bid | none => 0
    .next ((s.ptmFlag p 3).raiseStop 2 0 2 1 p (locCell s n) bid)
  else .next s

end Sys2Proof.Machine
end

