-- ==== Sys2Proof/Machine/Dispatch.lean ====
section
/-!
DEFINITION. One arm per command: the meaning it calls.
-/
namespace Sys2Proof.Machine

def exec (i : Instr) (s : State) : Host.Outcome State Fault Refusal :=
  match i with
  | .registerWrite r width v => Sys2Proof.Machine.execRegisterWrite r width v s
  | .lowHalfRead r => Sys2Proof.Machine.execLowHalfRead r s
  | .rcRead r => Sys2Proof.Machine.execRcRead r s
  | .ptRead w gchk egen => Sys2Proof.Machine.execPtRead w gchk egen s
  | .alloc w gchk egen => Sys2Proof.Machine.execAlloc w gchk egen s
  | .refInc w gchk egen => Sys2Proof.Machine.execRefInc w gchk egen s
  | .refDec w gchk egen => Sys2Proof.Machine.execRefDec w gchk egen s
  | .seal w gchk egen => Sys2Proof.Machine.execSeal w gchk egen s
  | .retag w gchk egen => Sys2Proof.Machine.execRetag w gchk egen s
  | .clean w gchk egen => Sys2Proof.Machine.execClean w gchk egen s
  | .free w gchk egen => Sys2Proof.Machine.execFree w gchk egen s
  | .restore w gchk egen => Sys2Proof.Machine.execRestore w gchk egen s
  | .pageTableOpEnd w => Sys2Proof.Machine.execPageTableOpEnd w s
  | .fillComplete page => Sys2Proof.Machine.execFillComplete page s
  | .release p lcnt bset => Sys2Proof.Machine.execRelease p lcnt bset s
  | .commit p => Sys2Proof.Machine.execCommit p s
  | .abort p => Sys2Proof.Machine.execAbort p s
  | .seqStepWrite p hi v => Sys2Proof.Machine.execSeqStepWrite p hi v s
  | .bindWrite p v => Sys2Proof.Machine.execBindWrite p v s
  | .bindWriteEnd p => Sys2Proof.Machine.execBindWriteEnd p s
  | .ptmDlWrite p hi v => Sys2Proof.Machine.execPtmDlWrite p hi v s
  | .bundleIssue => Sys2Proof.Machine.execBundleIssue s
  | .plateFetch p => Sys2Proof.Machine.execPlateFetch p s
  | .segmentAccept n => Sys2Proof.Machine.execSegmentAccept n s
  | .operationStart n u => Sys2Proof.Machine.execOperationStart n u s
  | .matmul n e => Sys2Proof.Machine.execMatmul n e s
  | .drain n e => Sys2Proof.Machine.execDrain n e s
  | .vecSimpleFp32 n => Sys2Proof.Machine.execVecSimpleFp32 n s
  | .vecInteger n => Sys2Proof.Machine.execVecInteger n s
  | .vecConversion n => Sys2Proof.Machine.execVecConversion n s
  | .vecDivideRoot n => Sys2Proof.Machine.execVecDivideRoot n s
  | .vecElementary n => Sys2Proof.Machine.execVecElementary n s
  | .vecReduction n => Sys2Proof.Machine.execVecReduction n s
  | .vecMovement n => Sys2Proof.Machine.execVecMovement n s
  | .vecMemory n => Sys2Proof.Machine.execVecMemory n s
  | .panrd n pan => Sys2Proof.Machine.execPanrd n pan s
  | .panwr n pan => Sys2Proof.Machine.execPanwr n pan s
  | .gather n lane => Sys2Proof.Machine.execGather n lane s
  | .move n => Sys2Proof.Machine.execMove n s
  | .cold n => Sys2Proof.Machine.execCold n s
  | .barrier p => Sys2Proof.Machine.execBarrier p s
  | .phase p => Sys2Proof.Machine.execPhase p s
  | .endPlate p => Sys2Proof.Machine.execEndPlate p s
  | .strin n => Sys2Proof.Machine.execStrin n s
  | .strout n => Sys2Proof.Machine.execStrout n s
  | .operationComplete n op => Sys2Proof.Machine.execOperationComplete n op s
  | .moveAcknowledge n op => Sys2Proof.Machine.execMoveAcknowledge n op s
  | .barrierComplete p => Sys2Proof.Machine.execBarrierComplete p s
  | .staggerRelease p => Sys2Proof.Machine.execStaggerRelease p s
  | .limiterGrant b => Sys2Proof.Machine.execLimiterGrant b s
  | .stepCompletion p => Sys2Proof.Machine.execStepCompletion p s
  | .stall p => Sys2Proof.Machine.execStall p s
  | .deadlineMiss p => Sys2Proof.Machine.execDeadlineMiss p s
  | .panPatrolRead pan found => Sys2Proof.Machine.execPanPatrolRead pan found s
  | .rowCopyComplete pan layer row => Sys2Proof.Machine.execRowCopyComplete pan layer row s
  | .cellRepair n reason => Sys2Proof.Machine.execCellRepair n reason s
  | .ageingCheck n below => Sys2Proof.Machine.execAgeingCheck n below s
  | .oscillatorTrim n beats => Sys2Proof.Machine.execOscillatorTrim n beats s
  | .meshFlitResend n dir => Sys2Proof.Machine.execMeshFlitResend n dir s
  | .boundaryProcedure p => Sys2Proof.Machine.execBoundaryProcedure p s
  | .commitRecordWrite p => Sys2Proof.Machine.execCommitRecordWrite p s
  | .standbyRelease p => Sys2Proof.Machine.execStandbyRelease p s
  | .replay p => Sys2Proof.Machine.execReplay p s
  | .rebuild p => Sys2Proof.Machine.execRebuild p s
  | .scrubComplete what => Sys2Proof.Machine.execScrubComplete what s
  | .apertureWrite port f off data => Sys2Proof.Machine.execApertureWrite port f off data s
  | .hpApReset port f => Sys2Proof.Machine.execHpApReset port f s
  | .ringEnWrite port f v => Sys2Proof.Machine.execRingEnWrite port f v s
  | .hpRingHeadWrite port f v => Sys2Proof.Machine.execHpRingHeadWrite port f v s
  | .inboundFrame port f => Sys2Proof.Machine.execInboundFrame port f s
  | .logEntryAck f c => Sys2Proof.Machine.execLogEntryAck f c s
  | .egressWrite port f => Sys2Proof.Machine.execEgressWrite port f s
  | .irqDelayExpiry port f => Sys2Proof.Machine.execIrqDelayExpiry port f s
  | .flr port f => Sys2Proof.Machine.execFlr port f s
  | .configRequest port req => Sys2Proof.Machine.execConfigRequest port req s
  | .hello f => Sys2Proof.Machine.execHello f s
  | .session f => Sys2Proof.Machine.execSession f s
  | .chanQuery f => Sys2Proof.Machine.execChanQuery f s
  | .tenantCreate f => Sys2Proof.Machine.execTenantCreate f s
  | .tenantDelete f => Sys2Proof.Machine.execTenantDelete f s
  | .ddrAssign f => Sys2Proof.Machine.execDdrAssign f s
  | .rangeSet f => Sys2Proof.Machine.execRangeSet f s
  | .partCreate f => Sys2Proof.Machine.execPartCreate f s
  | .partDelete f => Sys2Proof.Machine.execPartDelete f s
  | .vpairAlloc f => Sys2Proof.Machine.execVpairAlloc f s
  | .vpairRelease f => Sys2Proof.Machine.execVpairRelease f s
  | .policySet f => Sys2Proof.Machine.execPolicySet f s
  | .inchConfig f => Sys2Proof.Machine.execInchConfig f s
  | .outchConfig f => Sys2Proof.Machine.execOutchConfig f s
  | .toleranceSet f => Sys2Proof.Machine.execToleranceSet f s
  | .ctxOpen f => Sys2Proof.Machine.execCtxOpen f s
  | .ctxClose f => Sys2Proof.Machine.execCtxClose f s
  | .fork f => Sys2Proof.Machine.execFork f s
  | .seqDrop f => Sys2Proof.Machine.execSeqDrop f s
  | .imgBegin f => Sys2Proof.Machine.execImgBegin f s
  | .imgBlock f => Sys2Proof.Machine.execImgBlock f s
  | .imgEnd f => Sys2Proof.Machine.execImgEnd f s
  | .imgAbort f => Sys2Proof.Machine.execImgAbort f s
  | .plateUnload f => Sys2Proof.Machine.execPlateUnload f s
  | .tableUnload f => Sys2Proof.Machine.execTableUnload f s
  | .weightsUnload f => Sys2Proof.Machine.execWeightsUnload f s
  | .modelRegister f => Sys2Proof.Machine.execModelRegister f s
  | .modelRemove f => Sys2Proof.Machine.execModelRemove f s
  | .profileSet f => Sys2Proof.Machine.execProfileSet f s
  | .profileRemove f => Sys2Proof.Machine.execProfileRemove f s
  | .treeSet f => Sys2Proof.Machine.execTreeSet f s
  | .vctxOpen f => Sys2Proof.Machine.execVctxOpen f s
  | .vctxClose f => Sys2Proof.Machine.execVctxClose f s
  | .keyRequest f => Sys2Proof.Machine.execKeyRequest f s
  | .attest f => Sys2Proof.Machine.execAttest f s
  | .fwBegin f => Sys2Proof.Machine.execFwBegin f s
  | .fwBlock f => Sys2Proof.Machine.execFwBlock f s
  | .fwEnd f => Sys2Proof.Machine.execFwEnd f s
  | .fwAbort f => Sys2Proof.Machine.execFwAbort f s
  | .fwActivate f => Sys2Proof.Machine.execFwActivate f s
  | .fwStatus f => Sys2Proof.Machine.execFwStatus f s
  | .firmwareConfirm => Sys2Proof.Machine.execFirmwareConfirm s
  | .confirmationWindowExpiry => Sys2Proof.Machine.execConfirmationWindowExpiry s
  | .pairConfig f => Sys2Proof.Machine.execPairConfig f s
  | .pairStatus f => Sys2Proof.Machine.execPairStatus f s
  | .pairUnpair f => Sys2Proof.Machine.execPairUnpair f s
  | .pairSuspect f => Sys2Proof.Machine.execPairSuspect f s
  | .pairResync f => Sys2Proof.Machine.execPairResync f s
  | .pairSnapshot f => Sys2Proof.Machine.execPairSnapshot f s
  | .snapshotTransmit p => Sys2Proof.Machine.execSnapshotTransmit p s
  | .mirrorDecision port f => Sys2Proof.Machine.execMirrorDecision port f s
  | .snapBegin f => Sys2Proof.Machine.execSnapBegin f s
  | .snapDome f => Sys2Proof.Machine.execSnapDome f s
  | .snapPage f => Sys2Proof.Machine.execSnapPage f s
  | .snapEnd f => Sys2Proof.Machine.execSnapEnd f s
  | .roleActive frame => Sys2Proof.Machine.execRoleActive frame s
  | .roleStandby frame => Sys2Proof.Machine.execRoleStandby frame s
  | .roleIsolate frame => Sys2Proof.Machine.execRoleIsolate frame s
  | .heartbeat => Sys2Proof.Machine.execHeartbeat s
  | .leaseExpiry => Sys2Proof.Machine.execLeaseExpiry s
  | .arbiterLink => Sys2Proof.Machine.execArbiterLink s
  | .sensorDatagram port frame => Sys2Proof.Machine.execSensorDatagram port frame s
  | .rtpDatagram port frame => Sys2Proof.Machine.execRtpDatagram port frame s
  | .reflexDatagram port frame => Sys2Proof.Machine.execReflexDatagram port frame s
  | .addressResolution port dst rest => Sys2Proof.Machine.execAddressResolution port dst rest s
  | .streamFrameDiscard port frame => Sys2Proof.Machine.execStreamFrameDiscard port frame s
  | .streamDeadlineExpiry entry k => Sys2Proof.Machine.execStreamDeadlineExpiry entry k s
  | .lldpTransmit port => Sys2Proof.Machine.execLldpTransmit port s
  | .lldpReceive port ttl far => Sys2Proof.Machine.execLldpReceive port ttl far s
  | .lldpExpiry port => Sys2Proof.Machine.execLldpExpiry port s
  | .remapWord port partner => Sys2Proof.Machine.execRemapWord port partner s
  | .laneLockLoss port lane => Sys2Proof.Machine.execLaneLockLoss port lane s
  | .linkDown port => Sys2Proof.Machine.execLinkDown port s
  | .pictureDecode k => Sys2Proof.Machine.execPictureDecode k s
  | .shapePicture k j => Sys2Proof.Machine.execShapePicture k j s
  | .pictureReady k j => Sys2Proof.Machine.execPictureReady k j s
  | .encodePicture k j => Sys2Proof.Machine.execEncodePicture k j s
  | .sliceCoded k j => Sys2Proof.Machine.execSliceCoded k j s
  | .ddrWriteAck c => Sys2Proof.Machine.execDdrWriteAck c s
  | .deviceFailed c dev => Sys2Proof.Machine.execDeviceFailed c dev s
  | .spareCopyComplete c => Sys2Proof.Machine.execSpareCopyComplete c s
  | .ddrPatrolRead c page cw devs => Sys2Proof.Machine.execDdrPatrolRead c page cw devs s
  | .zqCalibration c => Sys2Proof.Machine.execZqCalibration c s
  | .selfRefreshChange c => Sys2Proof.Machine.execSelfRefreshChange c s
  | .panApertureAccess core addr store => Sys2Proof.Machine.execPanApertureAccess core addr store s
  | .coldApertureAccess core addr store => Sys2Proof.Machine.execColdApertureAccess core addr store s
  | .domeStart v => Sys2Proof.Machine.execDomeStart v s
  | .domeFail v => Sys2Proof.Machine.execDomeFail v s
  | .domeKick core => Sys2Proof.Machine.execDomeKick core s
  | .domeWatchdogExpiry core => Sys2Proof.Machine.execDomeWatchdogExpiry core s
  | .domeCacheUe core => Sys2Proof.Machine.execDomeCacheUe core s
  | .domeMemoryUe => Sys2Proof.Machine.execDomeMemoryUe s
  | .dicClaim core => Sys2Proof.Machine.execDicClaim core s
  | .dicComplete core v => Sys2Proof.Machine.execDicComplete core v s
  | .dicSoftWrite core v => Sys2Proof.Machine.execDicSoftWrite core v s
  | .dicTimerExpiry core => Sys2Proof.Machine.execDicTimerExpiry core s
  | .pwrCapSetWrite v => Sys2Proof.Machine.execPwrCapSetWrite v s
  | .clampHoldEnd => Sys2Proof.Machine.execClampHoldEnd s
  | .clampClimb => Sys2Proof.Machine.execClampClimb s
  | .pwrPolWrite p v => Sys2Proof.Machine.execPwrPolWrite p v s
  | .idleWrite p v => Sys2Proof.Machine.execIdleWrite p v s
  | .offWrite p v => Sys2Proof.Machine.execOffWrite p v s
  | .idleHoldExpiry p => Sys2Proof.Machine.execIdleHoldExpiry p s
  | .p3ExitDone p => Sys2Proof.Machine.execP3ExitDone p s
  | .powerInterval est queues => Sys2Proof.Machine.execPowerInterval est queues s
  | .gainUpdate measured estimated => Sys2Proof.Machine.execGainUpdate measured estimated s
  | .powerSample volts amps => Sys2Proof.Machine.execPowerSample volts amps s
  | .policyConflict p => Sys2Proof.Machine.execPolicyConflict p s
  | .droopDetect b => Sys2Proof.Machine.execDroopDetect b s
  | .stretchEnd b => Sys2Proof.Machine.execStretchEnd b s
  | .droopLong b still => Sys2Proof.Machine.execDroopLong b still s
  | .thermalLimitStep b temp => Sys2Proof.Machine.execThermalLimitStep b temp s
  | .thermal b temp => Sys2Proof.Machine.execThermal b temp s
  | .thermalTrip b temp => Sys2Proof.Machine.execThermalTrip b temp s
  | .coolant inlet outlet => Sys2Proof.Machine.execCoolant inlet outlet s
  | .oscWaitEnd refOk => Sys2Proof.Machine.execOscWaitEnd refOk s
  | .refclkLost => Sys2Proof.Machine.execRefclkLost s
  | .refclkReturn => Sys2Proof.Machine.execRefclkReturn s
  | .trimLost => Sys2Proof.Machine.execTrimLost s
  | .trimLock correction => Sys2Proof.Machine.execTrimLock correction s
  | .clkCtlWrite v => Sys2Proof.Machine.execClkCtlWrite v s
  | .start v => Sys2Proof.Machine.execStart v s
  | .measurementDone r => Sys2Proof.Machine.execMeasurementDone r s
  | .coldReset source full => Sys2Proof.Machine.execColdReset source full s
  | .warmReset source => Sys2Proof.Machine.execWarmReset source s
  | .computeReset source => Sys2Proof.Machine.execComputeReset source s
  | .partitionReset p => Sys2Proof.Machine.execPartitionReset p s
  | .romPhase => Sys2Proof.Machine.execRomPhase s
  | .ddrTraining failed => Sys2Proof.Machine.execDdrTraining failed s
  | .firmwareSelection => Sys2Proof.Machine.execFirmwareSelection s
  | .domeSelfTest failed => Sys2Proof.Machine.execDomeSelfTest failed s
  | .microcodeBroadcast failed => Sys2Proof.Machine.execMicrocodeBroadcast failed s
  | .cellCheck failed rows => Sys2Proof.Machine.execCellCheck failed rows s
  | .ddrTest failed => Sys2Proof.Machine.execDdrTest failed s
  | .ready => Sys2Proof.Machine.execReady s
  | .mgmtHello frame replyTo => Sys2Proof.Machine.execMgmtHello frame replyTo s
  | .mgmtCmdCheck frame replyTo => Sys2Proof.Machine.execMgmtCmdCheck frame replyTo s
  | .status => Sys2Proof.Machine.execStatus s
  | .attestMod => Sys2Proof.Machine.execAttestMod s
  | .faultRead => Sys2Proof.Machine.execFaultRead s
  | .keyEnroll => Sys2Proof.Machine.execKeyEnroll s
  | .keyRevoke => Sys2Proof.Machine.execKeyRevoke s
  | .keyList => Sys2Proof.Machine.execKeyList s
  | .platekeySet => Sys2Proof.Machine.execPlatekeySet s
  | .hostkeyPin => Sys2Proof.Machine.execHostkeyPin s
  | .licenceInstall => Sys2Proof.Machine.execLicenceInstall s
  | .capSet => Sys2Proof.Machine.execCapSet s
  | .trimSet => Sys2Proof.Machine.execTrimSet s
  | .portAddr => Sys2Proof.Machine.execPortAddr s
  | .macsecSak => Sys2Proof.Machine.execMacsecSak s
  | .macsecCtl => Sys2Proof.Machine.execMacsecCtl s
  | .streamAdd => Sys2Proof.Machine.execStreamAdd s
  | .streamRemove => Sys2Proof.Machine.execStreamRemove s
  | .streamList => Sys2Proof.Machine.execStreamList s
  | .reset => Sys2Proof.Machine.execReset s
  | .powerOff => Sys2Proof.Machine.execPowerOff s
  | .eventDest => Sys2Proof.Machine.execEventDest s
  | .faultWindowEnd key => Sys2Proof.Machine.execFaultWindowEnd key s
  | .presenceOpen => Sys2Proof.Machine.execPresenceOpen s
  | .lossLineRepeat => Sys2Proof.Machine.execLossLineRepeat s
  | .powerGood => Sys2Proof.Machine.execPowerGood s
  | .modResetN released lowNs => Sys2Proof.Machine.execModResetN released lowNs s
  | .wakeN lowNs => Sys2Proof.Machine.execWakeN lowNs s
  | .inputFault mv us => Sys2Proof.Machine.execInputFault mv us s
  | .linkTrained port width => Sys2Proof.Machine.execLinkTrained port width s
  | .bufferSetRelease k j set => Sys2Proof.Machine.execBufferSetRelease k j set s
  | .pwrTolWrite p v => Sys2Proof.Machine.execPwrTolWrite p v s
  | .ddrOwnWrite c v => Sys2Proof.Machine.execDdrOwnWrite c v s

end Sys2Proof.Machine
end

