-- ==== Sys2Proof/Machine/Tick.lean ====
section
/-!
DEFINITION. One tick of 10 ns (R125), which passes while no command waits: the deadline tick, the beats of the cells with the
beats that engines lose, the soft errors, the watchdogs (R123), the entropy engines (R247), and the frames that wait for ring space (R306).
-/
namespace Sys2Proof.Machine

/-- Beats that a cell runs in this tick: its target rate, halved in a beat stretch; the spec bounds the mean alone (R61, R369, R384,
log 16). -/
def State.tickBeats (s : State) (n : Nat) : Nat :=
  let half := 2 * s.target n / (if (s.block (blockOf n)).stretch.isSome then 2 else 1)
  Config.beats s.now n half % (half + 1)

/-- Pans of a cell that its operations access: those whose page a started operation reads or writes on a unit whose work is not done, a
decode lane its own (R96 to R99, R133, R164). -/
def State.pansInUse (s : State) (x : Part) (n : Nat) : List Nat :=
  (s.cell n).ops.flatMap (fun o => (o.started.filter (fun u => !o.worked.contains u && !o.dead)).flatMap (fun u =>
    if 9 ≤ u ∧ u ≤ 12 then [4 * n + (u - 9)] else (pageUses s x n u o.desc).map (fun g => pagePanNo g.page)))

/-- Beats that a cell's staging store loses to bank conflicts, and the Pans that its operations access to layer conflicts; which they are
the spec does not say: free values, no more than the beats of the tick (R61, R133, R141, log 16). -/
def State.tickWaits (s : State) (x : Part) (n beats : Nat) : State :=
  if (s.cell n).ops.isEmpty then s
  else
    let (v, s) := s.draw
    let s := s.onCell n (fun c => { c with ssWait := sat32 (c.ssWait + v % (beats + 1)) })
    (s.pansInUse x n).eraseDups.foldl (fun s i =>
      let (w, s) := s.draw
      s.onPan i (fun y => { y with wait := sat32 (y.wait + w % (beats + 1)) })) s

/-- Engines of a cell that wait for a limiter grant (R121). -/
def State.grantWaits (s : State) (x : Part) (n : Nat) : Nat :=
  if x.st == .released then ((List.range 4).filter (fun e => wantsGrant s x n e)).length else 0

/-- One cell in a tick (R61, R121). -/
def State.tickCell (s : State) (p n : Nat) : State :=
  let b := s.tickBeats n
  let w := s.grantWaits (s.part p) n
  let s := s.onCell n (fun c => { c with beats := c.beats + b })
  let s := if w = 0 then s else s.onPart p (fun x => { x with limWait := sat32 (x.limWait + w * b) })
  s.tickWaits (s.part p) n b

/-- The watchdog of a partition in a tick (R123): a flit acknowledged in it restarts the count, which the model's link layer does not show
(a free bit, log 151); while a STRIN or STROUT waits the count is suspended, and PTM_QUIET reads 0, which R123 does not state
(log 144). -/
def State.tickQuiet (s : State) (p : Nat) : State :=
  let wait := streamWaits s p
  let acked := Config.flitAcked s.now p
  s.onPart p (fun y => { y with quiet := if wait || acked then 0 else y.quiet + 1 })

/-- One partition in a tick: its cells, the unloads that waited for a pinned plate to stop (R108), and its watchdog (R123). -/
def State.tickPart (s : State) (p : Nat) : State :=
  let x := s.part p
  if !x.present then s
  else
    let s := (x.cells.filter (fun n => decide (0 < s.target n))).foldl (fun s n => s.tickCell p n) s
    let s := if x.unloads.isEmpty then s else s.runUnloads p
    if x.st == .released then s.tickQuiet p else s

/-- One port of a function in a tick: HP_RING_FULL counts, and a full ring sets RING_FULL (R293, R306). -/
def State.tickRing (s : State) (h f : Nat) : State :=
  match s.ringWaits h f with
  | none => s
  | some full =>
    let s := s.onHp h f (fun x => { x with ringFull := sat32 (x.ringFull + 1) })
    if full && !bit (s.hp h f).stat 2 then s.hpFlag h f 2 else s

/-- One tick: 10 ns pass (R125, R379), with the soft errors that come in it (log 13). -/
def State.oneTick (s : State) : State :=
  if !s.clk.running then s
  else
    let s := s.onClk (fun c => { c with tick := wrap64 (c.tick + 1) })
    let s := (Config.upsets s.now).foldl State.upset s
    let s := (List.range 16).foldl State.tickPart s
    let s := (List.range 4).foldl (fun s k => if (s.vpair k).ctxs.isEmpty then s else s.runAhead k) s
    (List.range 34).foldl (fun s i => s.tickRing (i / 17) (i % 17)) s

end Sys2Proof.Machine
end

