-- ==== Sys2Proof/WellFormed.lean ====
section
/-!
DEFINITION. Well-formed commands: every operand that names a part of the module names one that exists (R61, R74, R131, R141,
R247, R270, R291, R322, R335, R453). A meaning is total: on a number that names no part it changes nothing.
-/
namespace Sys2Proof

/-- An operand lies below a bound. -/
def below (n bound : Nat) : Bool := decide (n < bound)

/-- A register address: of a core, or an offset of BAR0 of a function on a port (R293, R453). -/
def RegAddr.wf : RegAddr → Bool
  | .dome core addr => below core 8 && below addr (2 ^ 64)
  | .bar0 port func off => below port 2 && below func 17 && below off 0x4000

/-- A resource under scrub (R435). -/
def Scrub.wf : Scrub → Bool
  | .ctx p c => below p 16 && below c 64
  | .part p => below p 16
  | .pair k => below k 4

/-- The operands of a command name parts that exist. -/
def Instr.wf : Instr → Bool
  | .registerWrite r width _ => r.wf && ([8, 16, 32].contains width)
  | .lowHalfRead r => r.wf
  | .rcRead r => r.wf
  | .ptRead w _ egen => below w 8 && below egen 256
  | .alloc w _ egen => below w 8 && below egen 256
  | .refInc w _ egen => below w 8 && below egen 256
  | .refDec w _ egen => below w 8 && below egen 256
  | .seal w _ egen => below w 8 && below egen 256
  | .retag w _ egen => below w 8 && below egen 256
  | .clean w _ egen => below w 8 && below egen 256
  | .free w _ egen => below w 8 && below egen 256
  | .restore w _ egen => below w 8 && below egen 256
  | .pageTableOpEnd w => below w 8
  | .fillComplete page => below page 131072
  | .release p lcnt bset => below p 16 && below lcnt 16 && below bset 2
  | .commit p => below p 16
  | .abort p => below p 16
  | .seqStepWrite p _ _ => below p 16
  | .bindWrite p _ => below p 16
  | .bindWriteEnd p => below p 16
  | .ptmDlWrite p _ _ => below p 16
  | .bundleIssue => true
  | .plateFetch p => below p 16
  | .segmentAccept n => below n 1024
  | .operationStart n u => below n 1024 && below u 14
  | .matmul n e => below n 1024 && below e 4
  | .drain n e => below n 1024 && below e 4
  | .vecSimpleFp32 n => below n 1024
  | .vecInteger n => below n 1024
  | .vecConversion n => below n 1024
  | .vecDivideRoot n => below n 1024
  | .vecElementary n => below n 1024
  | .vecReduction n => below n 1024
  | .vecMovement n => below n 1024
  | .vecMemory n => below n 1024
  | .panrd n pan => below n 1024 && below pan 4
  | .panwr n pan => below n 1024 && below pan 4
  | .gather n lane => below n 1024 && below lane 4
  | .move n => below n 1024
  | .cold n => below n 1024
  | .barrier p => below p 16
  | .phase p => below p 16
  | .endPlate p => below p 16
  | .strin n => below n 1024
  | .strout n => below n 1024
  | .operationComplete n _ => below n 1024
  | .moveAcknowledge n _ => below n 1024
  | .barrierComplete p => below p 16
  | .staggerRelease p => below p 16
  | .limiterGrant b => below b 16
  | .stepCompletion p => below p 16
  | .stall p => below p 16
  | .deadlineMiss p => below p 16
  | .panPatrolRead pan _ => below pan 4096
  | .rowCopyComplete pan layer row => below pan 4096 && below layer 8 && below row 512
  | .cellRepair n _ => below n 1024
  | .ageingCheck n _ => below n 1024
  | .oscillatorTrim n _ => below n 1024
  | .meshFlitResend n dir => below n 1024 && below dir 8
  | .boundaryProcedure p => below p 16
  | .commitRecordWrite p => below p 16
  | .standbyRelease p => below p 16
  | .replay p => below p 16
  | .rebuild p => below p 16
  | .scrubComplete what => what.wf
  | .apertureWrite port f _ _ => below port 2 && below f 17
  | .hpApReset port f => below port 2 && below f 17
  | .ringEnWrite port f _ => below port 2 && below f 17
  | .hpRingHeadWrite port f _ => below port 2 && below f 17
  | .inboundFrame port f => below port 2 && below f 17
  | .logEntryAck f c => below f 17 && below c 256
  | .egressWrite port f => below port 2 && below f 17
  | .irqDelayExpiry port f => below port 2 && below f 17
  | .flr port f => below port 2 && below f 17
  | .configRequest port q => below port 2 && below q.f 17 && below (q.write.getD 0) (2 ^ 32)
  | .hello f => below f 17
  | .session f => below f 17
  | .chanQuery f => below f 17
  | .tenantCreate f => below f 17
  | .tenantDelete f => below f 17
  | .ddrAssign f => below f 17
  | .rangeSet f => below f 17
  | .partCreate f => below f 17
  | .partDelete f => below f 17
  | .vpairAlloc f => below f 17
  | .vpairRelease f => below f 17
  | .policySet f => below f 17
  | .inchConfig f => below f 17
  | .outchConfig f => below f 17
  | .toleranceSet f => below f 17
  | .ctxOpen f => below f 17
  | .ctxClose f => below f 17
  | .fork f => below f 17
  | .seqDrop f => below f 17
  | .imgBegin f => below f 17
  | .imgBlock f => below f 17
  | .imgEnd f => below f 17
  | .imgAbort f => below f 17
  | .plateUnload f => below f 17
  | .tableUnload f => below f 17
  | .weightsUnload f => below f 17
  | .modelRegister f => below f 17
  | .modelRemove f => below f 17
  | .profileSet f => below f 17
  | .profileRemove f => below f 17
  | .treeSet f => below f 17
  | .vctxOpen f => below f 17
  | .vctxClose f => below f 17
  | .keyRequest f => below f 17
  | .attest f => below f 17
  | .fwBegin f => below f 17
  | .fwBlock f => below f 17
  | .fwEnd f => below f 17
  | .fwAbort f => below f 17
  | .fwActivate f => below f 17
  | .fwStatus f => below f 17
  | .firmwareConfirm => true
  | .confirmationWindowExpiry => true
  | .pairConfig f => below f 17
  | .pairStatus f => below f 17
  | .pairUnpair f => below f 17
  | .pairSuspect f => below f 17
  | .pairResync f => below f 17
  | .pairSnapshot f => below f 17
  | .snapshotTransmit p => below p 16
  | .mirrorDecision port f => below port 2 && below f 17
  | .snapBegin f => below f 17
  | .snapDome f => below f 17
  | .snapPage f => below f 17
  | .snapEnd f => below f 17
  | .roleActive _ => true
  | .roleStandby _ => true
  | .roleIsolate _ => true
  | .heartbeat => true
  | .leaseExpiry => true
  | .arbiterLink => true
  | .sensorDatagram port _ => below port 2
  | .rtpDatagram port _ => below port 2
  | .reflexDatagram port _ => below port 2
  | .addressResolution port dst _ => below port 3 && below dst (2 ^ 48)
  | .streamFrameDiscard port _ => below port 2
  | .streamDeadlineExpiry entry _ => below entry 32
  | .lldpTransmit port => below port 6
  | .lldpReceive port _ _ => below port 6
  | .lldpExpiry port => below port 6
  | .remapWord port _ => below port 6
  | .laneLockLoss port lane => below port 6 && below lane 9
  | .linkDown port => below port 6
  | .pictureDecode k => below k 4
  | .shapePicture k j => below k 4 && below j 8
  | .pictureReady k j => below k 4 && below j 8
  | .encodePicture k j => below k 4 && below j 8
  | .sliceCoded k j => below k 4 && below j 8
  | .ddrWriteAck c => below c 8
  | .deviceFailed c dev => below c 8 && below dev 19
  | .spareCopyComplete c => below c 8
  | .ddrPatrolRead c page cw devs => below c 8 && below page 262144 && below cw 4096 && devs.all (fun d => below d 19)
  | .zqCalibration c => below c 8
  | .selfRefreshChange c => below c 8
  | .panApertureAccess core _ _ => below core 8
  | .coldApertureAccess core _ _ => below core 8
  | .domeStart _ => true
  | .domeFail _ => true
  | .domeKick core => below core 8
  | .domeWatchdogExpiry core => below core 8
  | .domeCacheUe core => below core 8
  | .domeMemoryUe => true
  | .dicClaim core => below core 8
  | .dicComplete core _ => below core 8
  | .dicSoftWrite core _ => below core 8
  | .dicTimerExpiry core => below core 8
  | .pwrCapSetWrite _ => true
  | .clampHoldEnd => true
  | .clampClimb => true
  | .pwrPolWrite p _ => below p 16
  | .idleWrite p _ => below p 16
  | .offWrite p _ => below p 16
  | .idleHoldExpiry p => below p 16
  | .p3ExitDone p => below p 16
  | .powerInterval _ _ => true
  | .gainUpdate _ _ => true
  | .powerSample volts _ => below volts 65536
  | .policyConflict p => below p 16
  | .droopDetect b => below b 16
  | .stretchEnd b => below b 16
  | .droopLong b _ => below b 16
  | .thermalLimitStep b temp => below b 16 && below temp 4096
  | .thermal b temp => below b 16 && below temp 4096
  | .thermalTrip b temp => below b 16 && below temp 4096
  | .coolant inlet outlet => below inlet 65536 && below outlet 65536
  | .oscWaitEnd _ => true
  | .refclkLost => true
  | .refclkReturn => true
  | .trimLost => true
  | .trimLock correction => below correction 65536
  | .clkCtlWrite _ => true
  | .start _ => true
  | .measurementDone _ => true
  | .coldReset source _ => below source 7
  | .warmReset source => below source 7
  | .computeReset source => below source 7
  | .partitionReset p => below p 16
  | .romPhase => true
  | .ddrTraining _ => true
  | .firmwareSelection => true
  | .domeSelfTest _ => true
  | .microcodeBroadcast _ => true
  | .cellCheck _ _ => true
  | .ddrTest _ => true
  | .ready => true
  | .mgmtHello _ _ => true
  | .mgmtCmdCheck _ _ => true
  | .status => true
  | .attestMod => true
  | .faultRead => true
  | .keyEnroll => true
  | .keyRevoke => true
  | .keyList => true
  | .platekeySet => true
  | .hostkeyPin => true
  | .licenceInstall => true
  | .capSet => true
  | .trimSet => true
  | .portAddr => true
  | .macsecSak => true
  | .macsecCtl => true
  | .streamAdd => true
  | .streamRemove => true
  | .streamList => true
  | .reset => true
  | .powerOff => true
  | .eventDest => true
  | .faultWindowEnd _ => true
  | .presenceOpen => true
  | .lossLineRepeat => true
  | .powerGood => true
  | .modResetN _ _ => true
  | .wakeN _ => true
  | .inputFault _ _ => true
  | .linkTrained port width => below port 6 && below width 9
  | .bufferSetRelease k j set => below k 4 && below j 8 && below set 16
  | .pwrTolWrite p _ => below p 16
  | .ddrOwnWrite c _ => below c 8

end Sys2Proof
end

