-- ==== Sys2Proof/Safety.lean ====
section
/-!
DEFINITION. What counts as a safe run: every waiting command is well-formed, the memories keep their canonical form, and no step
stops.
-/
namespace Sys2Proof.Machine

/-- The memories, arrays and error marks keep their canonical form: indices rise strictly, and no entry is the default. -/
def Mems.wf (m : Mems) : Bool :=
  Memory.wf m.pan && Memory.wf m.ss && Memory.wf m.cold && Memory.wf m.dome && Sp.wf 0 m.coldKey && Sp.wf 0 m.acc && Sp.wf 0 m.vreg
    && Sp.wf 0 m.pte && Sp.wf 0 m.bind && Sp.wf 0 m.panErr && Sp.wf 0 m.panOnce && Sp.wf 0 m.ssErr && Sp.wf 0 m.ddrErr

/-- Every command that waits is well-formed. -/
def State.queueWf (s : State) : Bool := s.pending.all Instr.wf

/-- A step stops: it faults or is refused. -/
def Stops (s : State) : Prop := ∀ t, step s ≠ .next t

/-- A pulse of MOD_RESET_N whose outcome the spec calls undefined (R482): the one input that stops the machine. -/
def undefinedPulse : Instr → Bool
  | .modResetN released lowNs => released && decide (1000 ≤ lowNs) && decide (lowNs < 10000)
  | _ => false

/-- A run of `n` steps that goes on to the end. -/
def RunsTo (s : State) : Nat → State → Prop
  | 0, t => t = s
  | n + 1, t => ∃ u, step s = .next u ∧ RunsTo u n t

/-- A safe state: its memories are canonical, its queue is well-formed, and no undefined pulse waits. -/
def State.safe (s : State) : Bool := s.mem.wf && s.queueWf && s.pending.all (fun c => !undefinedPulse c)

end Sys2Proof.Machine
end

