-- ==== Sys2Proof/Certificates/Slice0/Obligations.lean ====
section
/-!
DEFINITION. The statements of this model for the provers, with the few terms they share. Each says what commands do to the
state, what they leave as it was, or what holds of every step.
-/
namespace Sys2Proof.Claims
open Machine

/-- The command completes, and the state after it satisfies `Q`. -/
def Does (c : Instr) (s : State) (Q : State → Prop) : Prop := ∃ t, exec c s = .next t ∧ Q t

/-- The command completes and changes nothing. -/
def Leaves (c : Instr) (s : State) : Prop := exec c s = .next s

/-- Every byte of the Pans, the staging stores, the cold tier and Dome memory reads as before. -/
def SameBytes (s t : State) : Prop := t.mem.pan = s.mem.pan ∧ t.mem.ss = s.mem.ss ∧ t.mem.cold = s.mem.cold ∧ t.mem.dome = s.mem.dome

/-- Nothing but the entry of partition `p` differs. -/
def OnlyPart (s t : State) (p : Nat) : Prop := { t with parts := s.parts } = s ∧ ∀ q, q ≠ p → t.part q = s.part q

/-- The value of SEQ_LIST that names the plates of a step list in order (R201). -/
def packList (l : List Nat) : DWord := BitVec.ofNat 64 ((l.zipIdx.map (fun e => e.1 * 2 ^ (8 * e.2))).foldl (· + ·) 0)

/-- No error stands in the pages of a pinned plate that the handles name alone, which a release reads (R80, R137). -/
def PinnedClean (s : State) (x : Part) (hs : List Nat) : Prop :=
  ∀ h pl g, hs = [h] → x.plate h = some pl → pl.pinned = true → g ∈ 0 :: pl.pages →
    errsIn s.mem.panErr (g * pageBytes) pageBytes = []

end Sys2Proof.Claims

open Sys2Proof Sys2Proof.Machine Sys2Proof.Claims

-- The step.

/-- A step runs the command at the front of the queue on the state that holds the rest (log 1). -/
def Obligations.StepRunsFrontCommand : Prop :=
  ∀ (c : Instr) (rest : List Instr) (s : State), s.pending = c :: rest → step s = exec c { s with pending := rest }

/-- With an empty queue a step is one tick: the deadline tick advances by one, modulo 2^64; the bytes of every memory, the tenants, the
register latches, the pair, the faults, the DDR4 channels and the Watchtower stay; before the tick runs nothing changes (R125, log 2). -/
def Obligations.IdleStepIsOneTick : Prop :=
  ∀ s : State, s.pending = [] →
    (s.clk.running = true → ∃ t, step s = .next t ∧ t.clk = { s.clk with tick := (s.clk.tick + 1) % 2 ^ 64 } ∧ SameBytes s t
      ∧ t.pending = [] ∧ t.tenants = s.tenants ∧ t.latch = s.latch ∧ t.lowBuf = s.lowBuf ∧ t.bru = s.bru ∧ t.pair = s.pair
      ∧ t.faults = s.faults ∧ t.ddr = s.ddr ∧ t.watch = s.watch)
    ∧ (s.clk.running = false → step s = .next s)

/-- No command waits after reset, the memories list nothing, and no partition, tenant, session or stream exists. -/
def Obligations.ResetLeavesMemoriesCanonical : Prop :=
  State.reset.mem.wf = true ∧ State.reset.pending = [] ∧ (∀ a, Memory.byte State.reset.mem.pan a = 0)
    ∧ (∀ p, (State.reset.part p).present = false) ∧ (∀ t, (State.reset.tenant t).present = false)
    ∧ (∀ h f, (State.reset.hp h f).session = none) ∧ (∀ i, State.reset.stream i = none) ∧ ∀ r, State.reset.pte r = 0

/-- From every state whose memories, arrays and error marks are in canonical form, a step leads to one whose are. -/
def Obligations.StepKeepsMemoriesCanonical : Prop :=
  ∀ s t : State, s.mem.wf = true → step s = .next t → t.mem.wf = true

/-- No command is refused, and none faults but a reset pulse of undefined length. -/
def Obligations.OnlyUndefinedPulseStops : Prop :=
  ∀ (c : Instr) (s : State), (∃ t, exec c s = .next t) ∨ (undefinedPulse c = true ∧ exec c s = .fault .undefinedResetPulse)

/-- MOD_RESET_N: a pulse below 1 µs changes nothing, and one of at least 1 µs and below 10 µs has no defined outcome. -/
def Sys2Proof.Claims.ResetPulseLengths : Prop :=
  ∀ (released : Bool) (ns : Nat) (s : State),
    (ns < 1000 → Leaves (.modResetN released ns) s)
    ∧ (1000 ≤ ns → ns < 10000 → exec (.modResetN true ns) s = .fault .undefinedResetPulse)

-- Registers.

/-- A read of the low half of a 64-bit quantity of a Dome window returns it and latches the high half; the next read of the high
half returns what was latched, whatever has become of the quantity meanwhile. -/
def Sys2Proof.Claims.LowHalfReadLatchesHighHalf : Prop :=
  ∀ (core addr v : Nat) (w : Win) (off : Nat) (s : State), core ≤ 7 → addr % 4 = 0 → region addr = .reg w off →
    s.regPair w off = some v →
    Does (.lowHalfRead (.dome core addr)) s (fun t =>
      t.rdata = v % 2 ^ 32 ∧ { t with rdata := s.rdata, latch := s.latch } = s
      ∧ ∀ (u : State) (x : Nat), u.latch = t.latch → region (addr + 4) = .reg w (off + 4) → u.regPair w (off + 4) = none →
          u.regPair w off = some x →
          Does (.lowHalfRead (.dome core (addr + 4))) u (fun r =>
            r.rdata = v / 2 ^ 32 % 2 ^ 32 ∧ { r with rdata := u.rdata, latch := u.latch } = u))

/-- Reading an RC counter of a Pan returns its value and clears it, and nothing else changes. -/
def Sys2Proof.Claims.CounterReadClears : Prop :=
  ∀ (core addr n : Nat) (s : State), core ≤ 7 → addr % 4 = 0 →
    (region addr = .reg (.pan n) 0x08 → Does (.rcRead (.dome core addr)) s (fun t =>
      t.rdata = (s.pan n).ce % 2 ^ 32 ∧ t.pan n = { s.pan n with ce := 0 } ∧ (∀ m, m ≠ n → t.pan m = s.pan m)
      ∧ { t with rdata := s.rdata, pans := s.pans } = s))
    ∧ (region addr = .reg (.pan n) 0x0C → Does (.rcRead (.dome core addr)) s (fun t =>
      t.rdata = (s.pan n).ue % 2 ^ 32 ∧ t.pan n = { s.pan n with ue := 0 } ∧ (∀ m, m ≠ n → t.pan m = s.pan m)
      ∧ { t with rdata := s.rdata, pans := s.pans } = s))

/-- A write to a register acts by its access code: in a W1C register each bit written as 1 clears and the others stay, an RO
register discards the write, and so does register space for a write narrower than 32 bits. -/
def Sys2Proof.Claims.RegisterWriteByAccessCode : Prop :=
  ∀ (core addr n : Nat) (v : Word) (s : State), core ≤ 7 → addr % 4 = 0 →
    (region addr = .reg (.cell n) 0x0C → Does (.registerWrite (.dome core addr) 32 v) s (fun t =>
      (∀ i, i < 32 → bit (t.cell n).stat i = (bit (s.cell n).stat i && !bit v i))
      ∧ { t.cell n with stat := (s.cell n).stat } = s.cell n ∧ (∀ m, m ≠ n → t.cell m = s.cell m) ∧ { t with cells := s.cells } = s))
    ∧ (region addr = .reg (.cell n) 0x00 → Leaves (.registerWrite (.dome core addr) 32 v) s)
    ∧ (∀ w off width, region addr = .reg w off → width < 32 → Leaves (.registerWrite (.dome core addr) width v) s)
    ∧ (∀ port func off width, width < 32 → Leaves (.registerWrite (.bar0 port func off) width v) s)

-- The page table.

/-- An operation that is not refused has its effect on the row of its window, and on no other row: ALLOC makes the FREE page LIVE,
REF_INC and REF_DEC step REFCNT, SEAL makes it SEALED, RETAG replaces FMT, KIND and TAG, CLEAN clears DIRTY, FREE moves it to SCRUB
and starts the fill, RESTORE takes the whole entry with DIRTY set, PT_READ changes none; in a slice that is off no entry changes. The window is busy
until the operation ends. -/
def Obligations.PageOperationsTakeEffect : Prop :=
  ∀ (w : Nat) (gchk : Bool) (egen : Nat) (s : State), (s.win w).busy = false →
    let row := (s.win w).row
    let v := (s.win w).pte
    let e := s.pte row
    let run (c : Instr) (op : Nat) (Q : DWord → Prop) : Prop := ptRefusal s op row v gchk egen = none →
      Does c s (fun t => (if s.sliceOff row = true then t.pte row = e else Q (t.pte row)) ∧ (∀ r, r ≠ row → t.pte r = s.pte r) ∧ (t.win w).busy = true ∧ (t.win w).running = some (0, row)
        ∧ (∀ x, x ≠ w → t.win x = s.win x) ∧ SameBytes s t ∧ t.filling = (if op = 7 then addOnce row s.filling else s.filling))
    run (.ptRead w gchk egen) 0 (fun n => n = e)
    ∧ run (.alloc w gchk egen) 1 (fun n => Pte.state n = Pte.live ∧ Pte.kind n = Pte.kind v ∧ Pte.part n = Pte.part v
        ∧ Pte.gen n = Pte.gen e ∧ Pte.refcnt n = if Pte.kind v = Pte.scratch then 1 else 0)
    ∧ run (.refInc w gchk egen) 2 (fun n => Pte.refcnt n = Pte.refcnt e + 1 ∧ Pte.state n = Pte.state e ∧ Pte.tag n = Pte.tag e)
    ∧ run (.refDec w gchk egen) 3 (fun n => Pte.refcnt n + 1 = Pte.refcnt e ∧ Pte.state n = Pte.state e ∧ Pte.tag n = Pte.tag e)
    ∧ run (.seal w gchk egen) 4 (fun n => Pte.state n = Pte.sealed_ ∧ Pte.refcnt n = Pte.refcnt e ∧ Pte.kind n = Pte.kind e)
    ∧ run (.retag w gchk egen) 5 (fun n => Pte.fmt n = Pte.fmt v ∧ Pte.kind n = Pte.kind v ∧ Pte.tag n = Pte.tag v
        ∧ Pte.state n = Pte.state e ∧ Pte.refcnt n = Pte.refcnt e)
    ∧ run (.clean w gchk egen) 6 (fun n => bit n 9 = false ∧ ∀ i, i ≠ 9 → bit n i = bit e i)
    ∧ run (.free w gchk egen) 7 (fun n => Pte.state n = Pte.scrub ∧ Pte.gen n = Pte.gen e)
    ∧ run (.restore w gchk egen) 8 (fun n => bit n 9 = true ∧ ∀ i, i ≠ 9 → bit n i = bit v i)

/-- An operation that is refused changes no entry and reports its reason; while the window is busy a new one is discarded and sets
CMD_IGN. -/
def Sys2Proof.Claims.RefusedPageOperationChangesNoEntry : Prop :=
  ∀ (w op r : Nat) (gchk : Bool) (egen : Nat) (s : State),
    let c : Instr := match op with
      | 0 => .ptRead w gchk egen | 1 => .alloc w gchk egen | 2 => .refInc w gchk egen | 3 => .refDec w gchk egen
      | 4 => .seal w gchk egen | 5 => .retag w gchk egen | 6 => .clean w gchk egen | 7 => .free w gchk egen
      | _ => .restore w gchk egen
    op ≤ 8 →
    ((s.win w).busy = false → ptRefusal s op (s.win w).row (s.win w).pte gchk egen = some r →
      Does c s (fun t => (t.win w).running = some (r, (s.win w).row) ∧ (t.win w).busy = true ∧ { t with ptw := s.ptw } = s))
    ∧ ((s.win w).busy = true → Does c s (fun t =>
        t.win w = { s.win w with cmdIgn := true } ∧ (∀ x, x ≠ w → t.win x = s.win x) ∧ { t with ptw := s.ptw } = s))

/-- At its end a page-table operation shows its result and the row's entry in the window, BUSY clears, and PT_Wc is pending or
re-fires; a fill completes a page of SCRUB: every byte reads 0, the entry is FREE with GEN advanced, and pages and entries of other
rows stay. -/
def Sys2Proof.Claims.PageOperationEndAndFill : Prop :=
  (∀ (w r row : Nat) (s : State), (s.win w).running = some (r, row) →
    Does (.pageTableOpEnd w) s (fun t => (t.win w).busy = false ∧ (t.win w).result = r ∧ (t.win w).pte = s.pte row
      ∧ (136 + w ∈ t.dome.pend ∨ 136 + w ∈ t.dome.refire) ∧ (∀ x, x ≠ w → t.win x = s.win x)
      ∧ { t with ptw := s.ptw, dome := s.dome } = s))
  ∧ ∀ (page : Nat) (s : State), Pte.state (s.pte page) = Pte.scrub →
    Does (.fillComplete page) s (fun t => Pte.state (t.pte page) = Pte.free ∧ Pte.gen (t.pte page) = (Pte.gen (s.pte page) + 1) % 256
      ∧ (∀ r, r ≠ page → t.pte r = s.pte r) ∧ page ∉ t.filling
      ∧ (∀ a, Memory.byte t.mem.pan a = if pageBytes * page ≤ a ∧ a < pageBytes * (page + 1) then 0 else Memory.byte s.mem.pan a)
      ∧ t.mem.ss = s.mem.ss ∧ t.mem.cold = s.mem.cold ∧ t.mem.dome = s.mem.dome ∧ t.parts = s.parts)


-- Step control and bindings.

/-- RELEASE in BOUNDARY starts the step when its checks pass, sets ERR to the first that fails when one does, and in every other
state sets CTL_IGN; no other partition and no memory changes, where no error stands in the pages of a pinned plate that it reads. -/
def Obligations.ReleaseStartsStepOrReports : Prop :=
  ∀ (p lcnt bset : Nat) (s : State),
    let x := s.part p
    let may := x.st = .boundary ∧ x.present = true ∧ x.failed = false ∧ s.underScrub p = false
    (may → releaseErr s x lcnt (bset % 2) = 0 →
      PinnedClean s x (x.listHandles lcnt) → Does (.release p lcnt bset) s (fun t =>
      (t.part p).st = .released ∧ (t.part p).bset = bset % 2 ∧ (t.part p).handles = x.listHandles lcnt
      ∧ (t.part p).dl = x.dl ∧ (t.part p).armed = (x.dl != 0) ∧ (t.part p).step = x.step
      ∧ (∀ q, q ≠ p → t.part q = s.part q) ∧ t.mem = s.mem ∧ t.fns = s.fns ∧ t.clk = s.clk))
    ∧ (may → releaseErr s x lcnt (bset % 2) ≠ 0 → Does (.release p lcnt bset) s (fun t =>
      t.part p = { x with err := releaseErr s x lcnt (bset % 2) } ∧ OnlyPart s t p))
    ∧ (¬ may → Does (.release p lcnt bset) s (fun t => t.part p = { x with ctlIgn := true } ∧ OnlyPart s t p))

/-- COMMIT of a COMPLETE partition returns it to BOUNDARY with its committed step count raised by one, modulo 2^64. In any other state
COMMIT, and ABORT in a state other than STOPPED, are discarded with CTL_IGN. A commit reads the accept records of verify steps from
the Pans; that it meets no error there is assumed. -/
def Sys2Proof.Claims.CommitRaisesStepCount : Prop :=
  ∀ (p : Nat) (s : State),
    (s.bru.halted = false → (s.part p).st = .complete →
      (s.mem.panErr = [] ∨ ∀ d e, (s.part p).decision = some d → e ∈ d.decodes → e.2.2.2 = false) → Does (.commit p) s (fun t =>
      (t.part p).st = .boundary ∧ (t.part p).step = ((s.part p).step + 1) % 2 ^ 64 ∧ (t.part p).decision = none
      ∧ (∀ q, q ≠ p → t.part q = s.part q) ∧ SameBytes s t ∧ t.clk = s.clk))
    ∧ (s.bru.halted = false → (s.part p).st ≠ .complete →
      Does (.commit p) s (fun t => t.part p = { s.part p with ctlIgn := true } ∧ OnlyPart s t p))
    ∧ ((s.part p).st ≠ .stopped →
      Does (.abort p) s (fun t => t.part p = { s.part p with ctlIgn := true } ∧ OnlyPart s t p))

/-- ABORT of a STOPPED partition returns it to BOUNDARY: barriers and queues clear in every cell of the partition, no tracker entry is
held, no deadline is armed, and the step count and other partitions stay. -/
def Sys2Proof.Claims.AbortClearsStoppedStep : Prop :=
  ∀ (p : Nat) (s : State), (s.part p).st = .stopped → Does (.abort p) s (fun t =>
    (t.part p).st = .boundary ∧ (t.part p).barriers = [] ∧ (t.part p).seqq = [] ∧ (t.part p).trk = 0 ∧ (t.part p).dl = 0
    ∧ (t.part p).armed = false ∧ (t.part p).step = (s.part p).step
    ∧ (∀ n, n ∈ (s.part p).cells → (t.cell n).ops = [] ∧ (t.cell n).queues = [] ∧ (t.cell n).segBuf = [] ∧ (t.cell n).tokens = [])
    ∧ (∀ n, n ∉ (s.part p).cells → t.cell n = s.cell n) ∧ (∀ q, q ≠ p → t.part q = s.part q) ∧ SameBytes s t)

/-- SEQ_STEP in BOUNDARY and PTM_DL outside RELEASED are written as 64-bit pairs: the low half is buffered, the high half commits
both. Elsewhere the write is discarded and sets CTL_IGN or DL_WR_IGN. -/
def Sys2Proof.Claims.StepCountAndDeadlineWrites : Prop :=
  ∀ (p : Nat) (v w : Word) (s : State),
    ((s.part p).st = .boundary → Does (.seqStepWrite p false v) s (fun t => { t with lowBuf := s.lowBuf } = s
      ∧ Does (.seqStepWrite p true w) t (fun u => (u.part p) = { s.part p with step := v.toNat + 2 ^ 32 * w.toNat }
        ∧ (∀ q, q ≠ p → u.part q = s.part q) ∧ { u with parts := s.parts, lowBuf := s.lowBuf } = s)))
    ∧ (∀ hi, (s.part p).st ≠ .boundary → Does (.seqStepWrite p hi v) s (fun t =>
        t.part p = { s.part p with ctlIgn := true } ∧ OnlyPart s t p))
    ∧ ((s.part p).st ≠ .released → Does (.ptmDlWrite p false v) s (fun t => { t with lowBuf := s.lowBuf } = s
      ∧ Does (.ptmDlWrite p true w) t (fun u => (u.part p) = { s.part p with dl := v.toNat + 2 ^ 32 * w.toNat }
        ∧ (∀ q, q ≠ p → u.part q = s.part q) ∧ { u with parts := s.parts, lowBuf := s.lowBuf } = s)))
    ∧ (∀ hi, (s.part p).st = .released → Does (.ptmDlWrite p hi v) s (fun t =>
        (t.part p).dl = (s.part p).dl ∧ bit (t.part p).ptmStat 4 = true ∧ OnlyPart s t p))

/-- A bind write puts the whole entry into the named slot and set of every cell of the rectangle and into no other; into the set of
the released step it is discarded with BW_IGN. BW_BUSY clears when the write ends. -/
def Sys2Proof.Claims.BindWriteReachesRectangle : Prop :=
  ∀ (p : Nat) (v : Word) (s : State),
    let x := s.part p
    let slot := fld x.bwSlot 0 16
    let set := fld x.bwSlot 16 1
    let inside (n : Nat) : Prop := n ∈ x.cells ∧ fld x.bwCells 0 5 ≤ x.relRow n ∧ x.relRow n ≤ fld x.bwCells 5 5
      ∧ fld x.bwCells 10 5 ≤ x.relCol n ∧ x.relCol n ≤ fld x.bwCells 15 5
    ((x.st ≠ .released ∨ set ≠ x.bset) → Does (.bindWrite p v) s (fun t =>
      (∀ n, inside n → t.bindEntry n set slot = { x with bwE := Sp.set 0 x.bwE 3 v }.bwEntry)
      ∧ (∀ n k sl, k < 2 → sl < 65536 → ¬ (inside n ∧ k = set ∧ sl = slot) → t.bindEntry n k sl = s.bindEntry n k sl)
      ∧ (t.part p).bwBusy = true ∧ (∀ q, q ≠ p → t.part q = s.part q) ∧ SameBytes s t ∧ t.mem.pte = s.mem.pte
      ∧ { t with parts := s.parts, mem := s.mem } = s))
    ∧ (x.st = .released → set = x.bset → Does (.bindWrite p v) s (fun t => (t.part p).bwIgn = true ∧ t.mem = s.mem ∧ OnlyPart s t p))
    ∧ Does (.bindWriteEnd p) s (fun t => t.part p = { x with bwBusy := false } ∧ OnlyPart s t p)

-- Issue, barriers, the limiter and the watchdog.

/-- One issue cycle. With a released step, MBEAT counts a bundle; a partition whose step is released, whose next segment is fetched
and whose cells can accept it gets its PMASK bit and delivers the segment to each of its cells, or takes an idle beat; a partition
that is not ready is untouched. With no released step only the cycle count rises. -/
def Obligations.BundleIssuesReadyPartitions : Prop :=
  ∀ s : State, s.bru.halted = false →
    ((∀ p, p < 16 → (s.part p).st ≠ .released) → Does .bundleIssue s (fun t => t = { s with seqCycle := s.seqCycle + 1 }))
    ∧ ((∃ p, p < 16 ∧ (s.part p).st = .released) → Does .bundleIssue s (fun t =>
      t.mbeat = (s.mbeat + 1) % 2 ^ 32 ∧ t.mem = s.mem ∧ t.seqCycle = s.seqCycle + 1 ∧ t.clk = s.clk
      ∧ ∀ p, p < 16 →
        (∀ sg len, issueReady s (s.part p) = some (sg, len) → (s.part p).idleLeft = 0 →
          t.pmask.testBit p = true ∧ (t.part p).segNo = (s.part p).segNo + 1 ∧ (t.part p).idleLeft = sg.idle
          ∧ ∀ n, n ∈ (s.part p).cells → ((s.part p).segNo, sg.descs.filter (fun d => !Dsc.isSeq d)) ∈ (t.cell n).segBuf)
        ∧ (∀ sg k, issueReady s (s.part p) = some (sg, k) → (s.part p).idleLeft ≠ 0 →
          t.pmask.testBit p = false ∧ t.part p = { s.part p with idleLeft := (s.part p).idleLeft - 1 })
        ∧ (issueReady s (s.part p) = none → t.pmask.testBit p = false ∧ t.part p = s.part p)))

/-- A fetch appends the next bytes of the plate's stream to the prefetch buffer of a released step while 64 bytes of room are left: at
most 64, within one page and the stream; the fetch position moves past them, and at the end of the stream to the start of the next plate
of the list. Without room, without a released step and past the last plate nothing is fetched. -/
def Sys2Proof.Claims.PlateFetchFillsPrefetch : Prop :=
  ∀ (p : Nat) (s : State),
    let x := s.part p
    (∀ pl, x.listPlate x.fetchList = some pl → x.st = .released → x.pinned = false → x.prefetch.length + 64 ≤ 4096 →
      let a := pl.segOff + x.fetchPos
      let n := min (min 64 (pl.segBytes - x.fetchPos)) (pageBytes - a % pageBytes)
      let at_ := pl.pages.getD (a / pageBytes) 0 * pageBytes + a % pageBytes
      s.rowBusy at_ n = false → errsIn s.mem.panErr at_ n = [] → Does (.plateFetch p) s (fun t => OnlyPart s t p
        ∧ (x.fetchPos + n < pl.segBytes → t.part p = { x with
            prefetch := x.prefetch ++ Memory.read s.mem.pan at_ n
            fetchPos := x.fetchPos + n })
        ∧ (pl.segBytes ≤ x.fetchPos + n → t.part p = { x with
            prefetch := x.prefetch ++ Memory.read s.mem.pan at_ n
            fetchPos := 0
            fetchList := x.fetchList + 1 })))
    ∧ ((x.listPlate x.fetchList = none ∨ x.st ≠ .released ∨ x.pinned = true ∨ 4096 < x.prefetch.length + 64) → Leaves (.plateFetch p) s)

/-- A cell takes up its oldest segment: each of its descriptors that selects the cell enters the queues of all its units, in order, or
stays in the buffer because one of those queues holds 32; the segment leaves the buffer when none stays. The watchdog restarts when a
descriptor enters or is dropped. No other cell and nothing else changes. -/
def Sys2Proof.Claims.SegmentAcceptMovesDescriptors : Prop :=
  ∀ (n p seg : Nat) (ds : List Desc) (rest : List (Nat × List Desc)) (s : State),
    s.cellOwner n = some p → (s.part p).st = .released → (s.cell n).segBuf = (seg, ds) :: rest →
    Does (.segmentAccept n) s (fun t => ∃ (new : List CellOp) (left : List Desc),
      let queue (u : State) (i : Nat) : List Nat := Sp.get [] (u.cell n).queues i
      ((new.map (fun o => o.desc)) ++ left).Perm
        (ds.filter (fun d => Dsc.selects d ((s.part p).relRow n) ((s.part p).relCol n)))
      ∧ (t.cell n).ops = (s.cell n).ops ++ new ∧ (∀ o, o ∈ new → o = { id := o.id, seg := seg, desc := o.desc })
      ∧ (∀ i, queue t i = queue s i ++ (new.filter (fun o => (Dsc.units o.desc).contains i)).map (fun o => o.id))
      ∧ (∀ d, d ∈ left → ∃ i, i ∈ Dsc.units d ∧ 32 ≤ (queue t i).length)
      ∧ (t.cell n).segBuf = (if left = [] then rest else (seg, left) :: rest)
      ∧ { t.cell n with segBuf := [], ops := [], queues := [], nextOp := 0 } = { s.cell n with segBuf := [], ops := [], queues := [], nextOp := 0 }
      ∧ (∀ m, m ≠ n → t.cell m = s.cell m) ∧ t.part p = (if left.length < ds.length then { s.part p with quiet := 0 } else s.part p)
      ∧ (∀ q, q ≠ p → t.part q = s.part q) ∧ { t with cells := s.cells, parts := s.parts } = s)

/-- The next operation of a unit starts when its barriers have passed, its unit is free, its token and tracker entry are there, an idle
engine holds a grant, and every page of its units may be reached: it leaves the queue, takes its token and its tracker entry. -/
def Sys2Proof.Claims.OperationStartTakesTokenAndTracker : Prop :=
  ∀ (n u p id : Nat) (rest : List Nat) (o : CellOp) (s : State),
    s.cellOwner n = some p → (s.part p).st = .released → Sp.get [] (s.cell n).queues u = id :: rest →
    (s.cell n).op id = some o → o.dead = false → mayStart s (s.part p) n u o = true →
    (Dsc.opc o.desc = 1 → engineIdle (s.cell n) u = true → u ∈ (s.cell n).grants) →
    (∀ v, v ∈ Dsc.units o.desc → ∀ g, g ∈ pageUses s (s.part p) n v o.desc → pageReason s p g.cell g.pan g.page g.bind g.write = none) →
    (Dsc.opc o.desc = 8 → coldReason s (s.part p) n o.desc = none) →
    Does (.operationStart n u) s (fun t =>
      Sp.get [] (t.cell n).queues u = rest
      ∧ Sp.get 0 (t.cell n).tokens (Dsc.wev o.desc)
          = Sp.get 0 (s.cell n).tokens (Dsc.wev o.desc) - (if Dsc.wen o.desc = true ∧ o.tok = false then 1 else 0)
      ∧ (t.part p).trk = (s.part p).trk + (if Dsc.tracked o.desc = true ∧ o.trk = false then 1 else 0)
      ∧ (∀ m, m ≠ n → t.cell m = s.cell m) ∧ (∀ q, q ≠ p → t.part q = s.part q) ∧ { t with cells := s.cells, parts := s.parts } = s)

/-- An operation whose units have done their work, and whose far end has acknowledged where it must, completes once its channel holds
fewer than 63 tokens: it leaves the cell, posts its token and returns its tracker entry. The acknowledgement of a MOVE that has done
its work is noted in the operation. -/
def Sys2Proof.Claims.OperationCompletionPostsToken : Prop :=
  ∀ (n op p : Nat) (o : CellOp) (s : State), s.cellOwner n = some p → (s.cell n).op op = some o →
    (o.dead = false → (∀ u, u ∈ Dsc.units o.desc → u ∈ o.worked) → (needsAck o.desc = true → o.acked = true) →
      (Dsc.pen o.desc = true → Sp.get 0 (s.cell n).tokens (Dsc.pev o.desc) < 63) →
      Does (.operationComplete n op) s (fun t =>
        (∀ q, q ∈ (t.cell n).ops ↔ q ∈ (s.cell n).ops ∧ q.id ≠ op)
        ∧ (Dsc.pen o.desc = true →
            Sp.get 0 (t.cell n).tokens (Dsc.pev o.desc) = Sp.get 0 (s.cell n).tokens (Dsc.pev o.desc) + 1)
        ∧ (t.part p).trk = (s.part p).trk - (if o.trk = true then 1 else 0) ∧ (t.part p).quiet = 0
        ∧ (∀ m, m ≠ n → t.cell m = s.cell m) ∧ (∀ q, q ≠ p → t.part q = s.part q) ∧ { t with cells := s.cells, parts := s.parts } = s))
    ∧ (Dsc.opc o.desc = 7 → 13 ∈ o.worked → Does (.moveAcknowledge n op) s (fun t =>
        (t.cell n).op op = some { o with acked := true } ∧ (∀ m, m ≠ n → t.cell m = s.cell m)
        ∧ { t with cells := s.cells, parts := s.parts } = s))

/-- Barriers of a released step: BARRIER makes the oldest descriptor of the sequencing unit a pending barrier; it completes when every
operation issued before it has, released to every block at once or, with STAGGER and more than one block, to the first; each further
block follows 8 sequencer cycles after the one before. No other partition and no memory changes. -/
def Sys2Proof.Claims.BarriersPendCompleteAndStagger : Prop :=
  ∀ (p : Nat) (s : State), (s.part p).st = .released →
    let x := s.part p
    (∀ seg d rest, x.seqq = (seg, d) :: rest → Dsc.opc d = 9 → Does (.barrier p) s (fun t =>
      (t.part p).seqq = rest ∧ (t.part p).barriers = x.barriers ++ [{ seg := seg, bid := Dsc.bid d, stagger := Dsc.stagger d }]
      ∧ OnlyPart s t p))
    ∧ (∀ b rest, x.barriers = b :: rest → b.done = false → allComplete s x b.seg = true → Does (.barrierComplete p) s (fun t =>
      (t.part p).lastBid = b.bid ∧ OnlyPart s t p
      ∧ (t.part p).barriers = if b.stagger = true ∧ 1 < x.blocks.length
          then { b with done := true, at_ := s.seqCycle, released := 1 } :: rest else rest))
    ∧ (∀ b rest, x.barriers = b :: rest → b.done = true → b.stagger = true → b.at_ + 8 * b.released ≤ s.seqCycle →
      Does (.staggerRelease p) s (fun t => OnlyPart s t p
        ∧ (t.part p).barriers = if x.blocks.length ≤ b.released + 1 then rest else { b with released := b.released + 1 } :: rest))

/-- A block's limiter grants a waiting engine of its partition's released step while fewer than 16 grants fall in the last 8
sequencer cycles; with 16 it grants none. -/
def Sys2Proof.Claims.LimiterGrantsAtMostSixteen : Prop :=
  ∀ (b p : Nat) (s : State), s.owner b = some p → (s.part p).st = .released →
    let recent := (s.block b).grants.filter (fun c => decide (s.seqCycle < c + 8))
    let waits (n e : Nat) : Prop := n ∈ blockCells b ∧ e < 4 ∧ wantsGrant s (s.part p) n e = true
    (recent.length < 16 → (∃ n e, waits n e) → Does (.limiterGrant b) s (fun t =>
      (t.block b).grants = recent ++ [s.seqCycle] ∧ (∃ n e, waits n e ∧ (t.cell n).grants = (s.cell n).grants ++ [e]
        ∧ ∀ m, m ≠ n → t.cell m = s.cell m)
      ∧ { t with cells := s.cells, parts := s.parts, blocks := s.blocks } = s))
    ∧ (16 ≤ recent.length → Leaves (.limiterGrant b) s)

/-- PHASE tells the power controller the phase that begins, with the defaults where RAMP names no entry and else with the entry of the
plate's ramp-plan table that RAMP names, read from the plate's pages; a PCODE of 0 or a reserved one changes no phase. The END of a plate
that is not the last leaves the queue, and that of the last plate, or of a pinned one, awaits the completion of the step. -/
def Sys2Proof.Claims.PhaseAndEndOfPlate : Prop :=
  ∀ (p seg : Nat) (d : Desc) (rest : List (Nat × Desc)) (s : State), (s.part p).st = .released → (s.part p).seqq = (seg, d) :: rest →
    let x := s.part p
    let pos := x.listPos - ((rest.filter (fun e => Dsc.opc e.2 == 0x1F)).length - (if x.issued = true then 1 else 0))
    let h := x.handles.getD pos 0
    let sets (ph : PhaseCtl) : Prop := Does (.phase p) s (fun t =>
      t.part p = { x with seqq := rest, pw := { x.pw with phase := ph } } ∧ OnlyPart s t p)
    (Dsc.opc d = 10 → (Dsc.pcode d = 0 ∨ 9 ≤ Dsc.pcode d) → sets x.pw.phase)
    ∧ (Dsc.opc d = 10 → 1 ≤ Dsc.pcode d → Dsc.pcode d ≤ 8 → (x.listPlate pos = none ∨ Dsc.ramp d = 0xFFF) →
        sets (phaseDefault (Dsc.pcode d) h))
    ∧ (∀ pl, Dsc.opc d = 10 → 1 ≤ Dsc.pcode d → Dsc.pcode d ≤ 8 → x.listPlate pos = some pl → Dsc.ramp d ≠ 0xFFF →
        (∀ g, g ∈ 0 :: pl.pages → s.rowBusy (g * pageBytes) pageBytes = false ∧ errsIn s.mem.panErr (g * pageBytes) pageBytes = []) →
        let a := pl.rampOff + 8 * Dsc.ramp d
        sets (rampEntry (leNat ((List.range 8).map (fun i =>
          Memory.byte s.mem.pan (pl.pages.getD ((a + i) / pageBytes) 0 * pageBytes + (a + i) % pageBytes)))) (Dsc.pcode d) h))
    ∧ (Dsc.opc d = 0x1F → x.endWait = false → Does (.endPlate p) s (fun t => OnlyPart s t p
      ∧ t.part p = if x.pinned = true ∨ (rest = [] ∧ x.issued = true) then { x with endWait := true } else { x with seqq := rest }))

/-- The step completes when every operation before the last END has completed, no barrier is pending and every tracker entry is back:
PTM_DONE is stamped, the deadline clears, DONE is set in PTM_STAT and the partition is COMPLETE. Where the deadline has passed, the
step's report says so, and the miss is raised unless it was before. A pass of a pinned plate is committed there: PTM_DONE is stamped, its
flags clear, and the step goes on. Before that point nothing happens. -/
def Sys2Proof.Claims.StepCompletionStampsDone : Prop :=
  ∀ (p seg : Nat) (d : Desc) (rest : List (Nat × Desc)) (s : State), (s.part p).st = .released → (s.part p).seqq = (seg, d) :: rest →
    let x := s.part p
    let may := x.endWait = true ∧ allComplete s x seg = true ∧ x.barriers = [] ∧ (x.pinned = true ∨ x.trk = 0)
    let late := x.armed = true ∧ x.dl < s.now
    (may → x.pinned = false → Does (.stepCompletion p) s (fun t => (t.part p).st = .complete ∧ (t.part p).doneTick = s.now
      ∧ (t.part p).dl = 0 ∧ (t.part p).armed = false ∧ bit (t.part p).ptmStat 0 = true ∧ (t.part p).step = x.step
      ∧ (t.part p).seqq = rest ∧ (t.part p).flags = x.flags ∧ ((t.part p).rep.missed = true ↔ late ∨ x.dlMissed = true)
      ∧ (late → x.dlMissed = false → bit (t.part p).ptmStat 2 = true ∧ Sp.get 0 t.faults.totals 3 = sat16 (Sp.get 0 s.faults.totals 3 + 1))
      ∧ (¬ (late ∧ x.dlMissed = false) → t.faults = s.faults)
      ∧ (∀ q, q ≠ p → t.part q = s.part q) ∧ t.mem = s.mem ∧ t.clk = s.clk ∧ t.cells = s.cells))
    ∧ (may → x.pinned = true → Does (.stepCompletion p) s (fun t => t.part p = { x with
          seqq := rest
          endWait := false
          quiet := 0
          doneTick := s.now
          outTaken := []
          flags := {} }
        ∧ (∀ q, q ≠ p → t.part q = s.part q) ∧ { t with parts := s.parts, fns := s.fns } = s))
    ∧ (¬ may → Leaves (.stepCompletion p) s)

/-- A released step that makes no progress for 5,000 ticks, while no STRIN or STROUT waits, stops; a step still running in the first
tick after its deadline, and after the tick of its release, has its miss raised once. -/
def Sys2Proof.Claims.WatchdogsStopAndReport : Prop :=
  ∀ (p : Nat) (s : State), (s.part p).st = .released →
    (5000 ≤ (s.part p).quiet → streamWaits s p = false → Does (.stall p) s (fun t =>
      (t.part p).st = .stopped ∧ (t.part p).dl = 0 ∧ (t.part p).armed = false ∧ bit (t.part p).ptmStat 3 = true
      ∧ (t.part p).step = (s.part p).step ∧ (∀ q, q ≠ p → t.part q = s.part q) ∧ t.mem = s.mem))
    ∧ ((s.part p).quiet < 5000 → Leaves (.stall p) s)
    ∧ ((s.part p).armed = true → (s.part p).dlMissed = false → (s.part p).dl < s.now → (s.part p).rep.tRel < s.now → Does (.deadlineMiss p) s (fun t =>
      (t.part p).dlMissed = true ∧ (t.part p).st = .released ∧ (t.part p).rep.missed = true
      ∧ (∀ q, q ≠ p → t.part q = s.part q) ∧ t.mem = s.mem ∧ Leaves (.deadlineMiss p) t))
    ∧ ((s.now ≤ (s.part p).dl ∨ s.now ≤ (s.part p).rep.tRel) → Leaves (.deadlineMiss p) s)


-- Descriptors at work.

namespace Sys2Proof.Claims
open Machine

/-- Lane `i` of vector register `r` of cell `n` (R53). -/
def lane (s : State) (n r i : Nat) : Nat := (Sp.get 0 s.mem.vreg ((32 * n + r) * 128 + i)).toNat

/-- The work of operation `o` on unit `u` of cell `n` is done, no other cell changes, and outside memory only the flags of partition
`p` may. -/
def UnitDone (s t : State) (p n u : Nat) (o : CellOp) : Prop :=
  (∃ q, q ∈ (t.cell n).ops ∧ q.id = o.id ∧ u ∈ q.worked) ∧ (∀ m, m ≠ n → t.cell m = s.cell m)
    ∧ (∀ q, q ≠ p → t.part q = s.part q) ∧ { t.part p with flags := (s.part p).flags } = s.part p
    ∧ { t with mem := s.mem, cells := s.cells, parts := s.parts } = s

/-- A VEC leaves every lane of every register but the valid lanes of VD, and every memory, as it was. -/
def VecFrame (s t : State) (p n : Nat) (o : CellOp) (valid : Nat) : Prop :=
  UnitDone s t p n 4 o ∧ { t.mem with vreg := s.mem.vreg } = s.mem
    ∧ ∀ m r i, r < 32 → i < 128 → ¬ (m = n ∧ r = Dsc.vd o.desc ∧ i < valid) → lane t m r i = lane s m r i

end Sys2Proof.Claims

/-- VEC, Integer: each valid lane of VD is the function of the lanes of VA and VB modulo 2^32; a shift by 32 or more gives 0. -/
def Sys2Proof.Claims.VecIntegerLanes : Prop :=
  ∀ (n p : Nat) (o : CellOp) (s : State), Vec.started s n 1 = some (p, o) → Dsc.valid o.desc ≤ 128 →
    let d := o.desc
    let r (t : State) (i : Nat) := lane t n (Dsc.vd d) i
    Does (.vecInteger n) s (fun t => VecFrame s t p n o (Dsc.valid d) ∧ (t.part p).flags = (s.part p).flags ∧ ∀ i, i < Dsc.valid d →
      let a := lane s n (Dsc.va d) i
      let b := lane s n (Dsc.vb d) i
      (Dsc.func d = 0 → r t i = (a + b) % 2 ^ 32) ∧ (Dsc.func d = 1 → (r t i + b) % 2 ^ 32 = a) ∧ (Dsc.func d = 2 → r t i = a * b % 2 ^ 32)
      ∧ (Dsc.func d = 3 → r t i = if 32 ≤ b then 0 else a * 2 ^ b % 2 ^ 32) ∧ (Dsc.func d = 5 → r t i = if 32 ≤ b then 0 else a / 2 ^ b)
      ∧ (Dsc.func d = 6 → r t i = a &&& b) ∧ (Dsc.func d = 7 → r t i = a ||| b) ∧ (Dsc.func d = 8 → r t i = a ^^^ b)
      ∧ (Dsc.func d = 11 → r t i = if a = b then 1 else 0))

/-- VEC, Simple FP32, Divide and root, Elementary: each valid lane of VD is the rounded result of its function on the lanes of the
operands, and the flags of every valid lane join the partition's. -/
def Sys2Proof.Claims.VecFloatLanes : Prop :=
  ∀ (n p : Nat) (o : CellOp) (s : State), Dsc.valid o.desc ≤ 128 →
    let d := o.desc
    let md := Arith.modeOf (Dsc.vrnd d)
    let a := fun i => lane s n (Dsc.va d) i
    let b := fun i => lane s n (Dsc.vb d) i
    let c := fun i => lane s n (Dsc.vc d) i
    let out (t : State) (f : Nat → Nat × Flags) : Prop := VecFrame s t p n o (Dsc.valid d)
      ∧ (∀ i, i < Dsc.valid d → lane t n (Dsc.vd d) i = (f i).1 % 2 ^ 32)
      ∧ (t.part p).flags = (s.part p).flags.or (Flags.all ((List.range (Dsc.valid d)).map (fun i => (f i).2)))
    (Vec.started s n 0 = some (p, o) → Does (.vecSimpleFp32 n) s (fun t =>
      (Dsc.func d = 0 → out t (fun i => Arith.add md (a i) (b i))) ∧ (Dsc.func d = 1 → out t (fun i => Arith.sub md (a i) (b i)))
      ∧ (Dsc.func d = 2 → out t (fun i => Arith.mul md (a i) (b i))) ∧ (Dsc.func d = 3 → out t (fun i => Arith.fma md (a i) (b i) (c i)))
      ∧ (Dsc.func d = 9 → out t (fun i => (if Arith.flt (a i) (b i) = true then 1 else 0, {})))
      ∧ (Dsc.func d = 11 → out t (fun i => (if c i ≠ 0 then a i else b i, {})))))
    ∧ (Vec.started s n 3 = some (p, o) → Does (.vecDivideRoot n) s (fun t =>
      (Dsc.func d = 0 → out t (fun i => Arith.div md (a i) (b i))) ∧ (Dsc.func d = 1 → out t (fun i => Arith.sqrt md (a i)))))
    ∧ (Vec.started s n 4 = some (p, o) →
      Does (.vecElementary n) s (fun t => out t (fun i => Arith.elementary (Dsc.func d) (a i))))

/-- VEC, Conversion, Reduction, Movement: FUNC 1 and 2 of Conversion convert each valid lane to and from INT32; a reduction leaves its
value in lane 0 alone; Movement shuffles, broadcasts and shifts the valid lanes, 0 where no lane is read. -/
def Sys2Proof.Claims.VecConversionReductionMovement : Prop :=
  ∀ (n p : Nat) (o : CellOp) (s : State), Dsc.valid o.desc ≤ 128 → 1 ≤ Dsc.valid o.desc →
    let d := o.desc
    let v := Dsc.valid d
    let md := Arith.modeOf (Dsc.vrnd d)
    let a := fun i => lane s n (Dsc.va d) i
    let b := fun i => lane s n (Dsc.vb d) i
    let r := fun (t : State) i => lane t n (Dsc.vd d) i
    (Vec.started s n 2 = some (p, o) → Does (.vecConversion n) s (fun t => VecFrame s t p n o v ∧ ∀ i, i < v →
      (Dsc.func d = 1 → r t i = (Arith.convert 8 md false (Arith.decode Arith.fp32 (a i))).1 % 2 ^ 32)
      ∧ (Dsc.func d = 2 → r t i = (Arith.convert 0 md false (Arith.Val.ofInt (Arith.toInt 32 (a i)))).1 % 2 ^ 32)))
    ∧ (Vec.started s n 5 = some (p, o) → Does (.vecReduction n) s (fun t => VecFrame s t p n o 1
      ∧ r t 0 = (Vec.reduction (Dsc.func d) md v ((List.range 128).map a)).1 % 2 ^ 32))
    ∧ (Vec.started s n 6 = some (p, o) → Does (.vecMovement n) s (fun t => VecFrame s t p n o v
      ∧ (t.part p).flags = (s.part p).flags ∧ ∀ i, i < v →
        (Dsc.func d = 0 → r t i = if b i < v then a (b i) else 0) ∧ (Dsc.func d = 1 → r t i = a 0)
        ∧ (Dsc.func d = 2 → r t i = if i < b 0 then 0 else a (i - b 0))
        ∧ (Dsc.func d = 3 → r t i = if i + b 0 < v then a (i + b 0) else 0)))

/-- VEC, Memory, with a scalar format: a load converts the packed elements of the staging store into the valid lanes of VD; a store
writes the converted lanes of VA there and keeps every byte it does not reach. -/
def Sys2Proof.Claims.VecMemoryLoadsAndStores : Prop :=
  ∀ (n p : Nat) (o : CellOp) (s : State), Vec.started s n 7 = some (p, o) → Dsc.valid o.desc ≤ 128 → Arith.isMx (Dsc.vfmt o.desc) = false →
    let d := o.desc
    let v := Dsc.valid d
    let w := Arith.elemBits (Dsc.vfmt d)
    let at_ := 262144 * n + 32 * Dsc.vsa d
    let nb := (v * w + 7) / 8
    (Dsc.func d = 0 → errsIn s.mem.ssErr at_ nb = [] → Does (.vecMemory n) s (fun t => VecFrame s t p n o v ∧ ∀ i, i < v →
      let x := (Vec.unpackBits w v (Memory.read s.mem.ss at_ nb)).getD i 0
      lane t n (Dsc.vd d) i = (if Arith.isInt (Dsc.vfmt d) = true then Arith.ofInt 32 (Arith.toInt w x)
        else (Arith.convert 0 (Arith.modeOf (Dsc.vrnd d)) false (Arith.valueOf (Dsc.vfmt d) x)).1) % 2 ^ 32))
    ∧ (Dsc.func d ≠ 0 → Does (.vecMemory n) s (fun t => UnitDone s t p n 4 o
      ∧ (∀ a, a < at_ ∨ at_ + nb ≤ a → Memory.byte t.mem.ss a = Memory.byte s.mem.ss a)
      ∧ t.mem.vreg = s.mem.vreg ∧ t.mem.acc = s.mem.acc ∧ t.mem.pan = s.mem.pan ∧ t.mem.cold = s.mem.cold ∧ t.mem.pte = s.mem.pte
      ∧ ∀ i, i < v → (Vec.unpackBits w v (Memory.read t.mem.ss at_ nb)).getD i 0
          = (Arith.convert (Dsc.vfmt d) (Arith.modeOf (Dsc.vrnd d)) (Dsc.vsat d) (if Arith.isInt (Dsc.vfmt d) = true
              then Arith.Val.ofInt (Arith.toInt 32 (lane s n (Dsc.va d) i)) else Arith.decode Arith.fp32 (lane s n (Dsc.va d) i))).1 % 2 ^ w))

/-- MATMUL, where no operand lies in a row that is being copied and no codeword read is in error: row i of A is the i-th operand row at
A's address, or with AMODE 1 the taps of its windows, +0 for padding; column j of B is the j-th row at B's address. Each word of the
accumulator tile inside M rows and N columns becomes the chunked dot product of its row and column on top of the old word, or of 0 with
CLR; the other words of the tile keep theirs, or become 0 with CLR. No other word changes, and only the partition's flags beside. -/
def Sys2Proof.Claims.MatmulAccumulatesTile : Prop :=
  ∀ (n e p : Nat) (o : CellOp) (s : State), startedOp s n e 1 = some (p, o) → Engine.waitsForRow s n e o.desc = false →
    let d := o.desc
    let clean (pan : Bool) (r : Nat × Nat) : Prop :=
      if pan = true then errsIn s.mem.panErr r.1 r.2 = [] else errsIn s.mem.ssErr (262144 * n + r.1) r.2 = []
    (∀ r, r ∈ Engine.rangesA n e d → clean (Dsc.asrc d) r) → (∀ r, r ∈ Engine.rangesB n e d → clean (Dsc.bsrc d) r) →
    let ra := Engine.rowBytes (Dsc.fmta d) (Dsc.k d)
    let rb := Engine.rowBytes (Dsc.fmtb d) (Dsc.k d)
    let piece (o : Option Nat) : List Arith.Val := match o with
      | some o => (Vec.unpackBits (Arith.elemBits (Dsc.fmta d)) 32 (Engine.spaceRead s (Dsc.asrc d) n (Engine.baseA n e d + o)
          (Engine.pixelUnits (Dsc.fmta d) * 32))).map (Arith.valueOf (Dsc.fmta d))
      | none => List.replicate 32 (.fin false 0 0)
    let rowA (i : Nat) : List Arith.Val := if Dsc.amode d = 1 then (Engine.windowRow d i).flatMap piece
      else Engine.rowValues (Dsc.fmta d) (Dsc.k d) (Engine.spaceRead s (Dsc.asrc d) n (Engine.baseA n e d + i * ra) ra)
    let colB (j : Nat) : List Arith.Val :=
      Engine.rowValues (Dsc.fmtb d) (Dsc.k d) (Engine.spaceRead s (Dsc.bsrc d) n (Engine.baseB n e d + j * rb) rb)
    let base := Engine.tileBase n e (Dsc.acc d)
    let old (i : Nat) : Nat := if Dsc.clr d = true then 0 else (Sp.get 0 s.mem.acc (base + i)).toNat
    Does (.matmul n e) s (fun t => UnitDone s t p n e o
      ∧ (∀ i, i < 1024 → (Sp.get 0 t.mem.acc (base + i)).toNat = if i / 32 < Dsc.mm d ∧ i % 32 < Dsc.nn d
          then (Engine.element (Arith.isInt (Dsc.fmta d)) (Arith.chunkLen (Dsc.fmta d) (Dsc.fmtb d)) (old i)
            (rowA (i / 32)) (colB (i % 32))).1 % 2 ^ 32
          else old i)
      ∧ (∀ k, k < base ∨ base + 1024 ≤ k → Sp.get 0 t.mem.acc k = Sp.get 0 s.mem.acc k)
      ∧ { t.mem with acc := s.mem.acc } = s.mem)

/-- DRAIN: the 32 rows of the tile, converted, go one after another to the staging store at SA plus the engine's step, or, with DEST, lane
by lane to eight vector registers from VREG on; the accumulators, every other register and every byte elsewhere stay. -/
def Sys2Proof.Claims.DrainWritesConvertedTile : Prop :=
  ∀ (n e p : Nat) (o : CellOp) (s : State), startedOp s n e 2 = some (p, o) →
    let d := o.desc
    let int := (s.cell n).intTiles.contains (2 * e + Dsc.acc d)
    let row (i : Nat) : List Nat := (List.range 32).map (fun j => (Sp.get 0 s.mem.acc (Engine.tileBase n e (Dsc.acc d) + 32 * i + j)).toNat)
    let data := (List.range 32).flatMap (fun i =>
      (Engine.drainRow (Dsc.drFmt d) (Arith.modeOf (Dsc.drRnd d)) (Dsc.drSat d) (Dsc.drSmode d) int (row i)).1)
    let at_ := 262144 * n + 32 * (Dsc.drSa d + e * Dsc.drDstep d)
    Does (.drain n e) s (fun t => UnitDone s t p n e o ∧ t.mem.acc = s.mem.acc ∧ t.mem.pan = s.mem.pan ∧ t.mem.cold = s.mem.cold
      ∧ t.mem.pte = s.mem.pte
      ∧ (Dsc.drDest d = false → t.mem.vreg = s.mem.vreg ∧ Memory.read t.mem.ss at_ data.length = data
          ∧ ∀ a, a < at_ ∨ at_ + data.length ≤ a → Memory.byte t.mem.ss a = Memory.byte s.mem.ss a)
      ∧ (Dsc.drDest d = true → t.mem.ss = s.mem.ss
          ∧ (∀ r i, r < 8 → i < 128 → lane t n (Dsc.drVreg d + r) i = leNat (slice data (512 * r + 4 * i) 4))
          ∧ ∀ k, (k < (32 * n + Dsc.drVreg d) * 128 ∨ (32 * n + Dsc.drVreg d + 8) * 128 ≤ k) →
              Sp.get 0 t.mem.vreg k = Sp.get 0 s.mem.vreg k))

/-- PANRD and PANWR move LEN units between the staging store and the page that the descriptor names, when no codeword read is in error;
PANWR sets DIRTY of the page. Bytes elsewhere stay. -/
def Obligations.PanPortsMoveUnits : Prop :=
  ∀ (n pan p : Nat) (o : CellOp) (s : State),
    let d := o.desc
    let page := (pageBy s (s.part p) n pan (Dsc.pInd d) (Dsc.pPage d)).1
    let pa := page * pageBytes + 32 * Dsc.poff d
    let sa := 262144 * n + 32 * Dsc.pSa d
    let len := 32 * Dsc.pLen d
    (startedOp s n (5 + pan) 4 = some (p, o) → errsIn s.mem.panErr pa len = [] → Does (.panrd n pan) s (fun t =>
      UnitDone s t p n (5 + pan) o ∧ t.mem.pan = s.mem.pan ∧ t.mem.pte = s.mem.pte ∧ t.mem.cold = s.mem.cold
      ∧ ∀ a, Memory.byte t.mem.ss a
          = if sa ≤ a ∧ a < sa + len then Memory.byte s.mem.pan (pa + (a - sa)) else Memory.byte s.mem.ss a))
    ∧ (startedOp s n (5 + pan) 5 = some (p, o) → errsIn s.mem.ssErr sa len = [] → Does (.panwr n pan) s (fun t =>
      UnitDone s t p n (5 + pan) o ∧ t.mem.ss = s.mem.ss ∧ t.mem.cold = s.mem.cold
      ∧ (∀ a, Memory.byte t.mem.pan a
          = if pa ≤ a ∧ a < pa + len then Memory.byte s.mem.ss (sa + (a - pa)) else Memory.byte s.mem.pan a)
      ∧ Pte.dirty (t.pte page) = true ∧ ∀ r, r ≠ page → t.pte r = s.pte r))

/-- MOVE between staging stores: the LEN units of the source stand in every destination cell of the partition's rectangle, and every
staging-store byte outside the destinations, and every page, stays. -/
def Sys2Proof.Claims.MoveWritesEveryDestination : Prop :=
  ∀ (n p : Nat) (o : CellOp) (s : State), startedOp s n 13 7 = some (p, o) →
    let d := o.desc
    let sa := 262144 * n + 32 * Dsc.saddr d
    let len := 32 * Dsc.mLen d
    let dests := moveDests (s.part p) n d
    Dsc.ssp d = false → Dsc.dsp d = false → errsIn s.mem.ssErr sa len = [] → 32 * Dsc.daddr d + len ≤ 262144 →
    Does (.move n) s (fun t => UnitDone s t p n 13 o ∧ t.mem.pan = s.mem.pan ∧ t.mem.pte = s.mem.pte ∧ t.mem.cold = s.mem.cold
      ∧ (∀ m k, m ∈ dests → k < len →
          Memory.byte t.mem.ss (262144 * m + 32 * Dsc.daddr d + k) = Memory.byte s.mem.ss (sa + k))
      ∧ ∀ a, (∀ m, m ∈ dests → a < 262144 * m + 32 * Dsc.daddr d ∨ 262144 * m + 32 * Dsc.daddr d + len ≤ a) →
          Memory.byte t.mem.ss a = Memory.byte s.mem.ss a)

/-- COLD: a harvest writes the page to the cold page of its binding slot under the key of the access and leaves its write to be
acknowledged; a flood writes the cold page, read under that key, to the page and sets DIRTY. Bytes elsewhere stay. -/
def Sys2Proof.Claims.ColdHarvestsAndFloods : Prop :=
  ∀ (n p k : Nat) (o : CellOp) (s : State), startedOp s n 13 8 = some (p, o) →
    let d := o.desc
    let x := s.part p
    let page := (pageBy s x n (Dsc.cPan d) (Dsc.cInd d) (Dsc.ppage d)).1
    let b := s.bindEntry n x.bset (Dsc.cslot d)
    let cp := Bnd.coldPage b
    s.coldKeyOf x.tenant (x.ctx (Bnd.coldCtx b)).key cp = some k →
    (Dsc.dir d = true → errsIn s.mem.panErr (page * pageBytes) pageBytes = [] → Does (.cold n) s (fun t =>
      (∃ q, q ∈ (t.cell n).ops ∧ q.id = o.id ∧ 13 ∈ q.worked)
      ∧ (t.dchan (coldChan cp)).writes = (s.dchan (coldChan cp)).writes ++ [(n, o.id)]
      ∧ (∀ i, i < pageBytes → t.coldByte (some k) (coldAddr cp + i) = Memory.byte s.mem.pan (page * pageBytes + i))
      ∧ (∀ a, a < coldAddr cp ∨ coldAddr cp + pageBytes ≤ a → Memory.byte t.mem.cold a = Memory.byte s.mem.cold a)
      ∧ t.mem.pan = s.mem.pan ∧ t.mem.ss = s.mem.ss ∧ t.mem.pte = s.mem.pte))
    ∧ (Dsc.dir d = false → (∀ e, e ∈ s.mem.ddrErr → e.1 < coldAddr cp / 32 ∨ coldAddr (cp + 1) / 32 ≤ e.1) → Does (.cold n) s (fun t =>
      (∃ q, q ∈ (t.cell n).ops ∧ q.id = o.id ∧ 13 ∈ q.worked) ∧ Pte.dirty (t.pte page) = true ∧ (∀ r, r ≠ page → t.pte r = s.pte r)
      ∧ (∀ a, Memory.byte t.mem.pan a = if page * pageBytes ≤ a ∧ a < (page + 1) * pageBytes
          then s.coldByte (some k) (coldAddr cp + (a - page * pageBytes)) else Memory.byte s.mem.pan a)
      ∧ t.mem.cold = s.mem.cold ∧ t.mem.ss = s.mem.ss))

/-- STRIN takes the payload of the next frame of its queue, cut to LENB bytes, into the staging store and marks the entry taken, where no
codeword of the entry is in error; on an empty queue it waits. -/
def Sys2Proof.Claims.StrinTakesNextFrame : Prop :=
  ∀ (n p : Nat) (o : CellOp) (s : State), startedOp s n 13 0x0B = some (p, o) →
    let d := o.desc
    let q := Bnd.queue (s.bindEntry n (s.part p).bset (Dsc.sslot d))
    let at_ := 262144 * n + 32 * Dsc.sSa d
    isReflexQueue s p q = false →
    (((s.fn (partFn p)).in_ q).nextData = none → Leaves (.strin n) s)
    ∧ (∀ e : LogEntry, ((s.fn (partFn p)).in_ q).nextData = some e →
      s.ringRangeOk ((s.fn (partFn p)).in_ q).ring (64 * e.pos) (64 * e.units) = (true, s) → Does (.strin n) s (fun t =>
      (∃ u, u ∈ (t.cell n).ops ∧ u.id = o.id ∧ 13 ∈ u.worked)
      ∧ (∃ e', e' ∈ ((t.fn (partFn p)).in_ q).entries ∧ e' = { e with taken := true })
      ∧ (∀ f c, (f, c) ≠ (partFn p, q) → (t.fn f).in_ c = (s.fn f).in_ c)
      ∧ (let b := (Fr.payload e.frame).take (Dsc.lenb d)
         Memory.read t.mem.ss at_ b.length = b ∧ ∀ a, a < at_ ∨ at_ + b.length ≤ a → Memory.byte t.mem.ss a = Memory.byte s.mem.ss a)
      ∧ t.mem.pan = s.mem.pan ∧ t.mem.cold = s.mem.cold ∧ t.mem.pte = s.mem.pte))

/-- STROUT outside the reflex partition hands an OUTPUT frame of the slot's channel and context to its function's egress, when the egress has
room and no byte read is in error, with the bytes of the staging store unless it is late; it waits while there is no room, and
in a partition that has failed. -/
def Sys2Proof.Claims.StroutHandsFrameToEgress : Prop :=
  ∀ (n p : Nat) (o : CellOp) (s : State), startedOp s n 13 0x0C = some (p, o) → (s.part p).reflex = false →
    let d := o.desc
    let need := roundUp (48 + Dsc.lenb d) 64
    let b := s.bindEntry n (s.part p).bset (Dsc.sslot d)
    ((s.fn (partFn p)).egressBytes + need > egressLimit → Leaves (.strout n) s)
    ∧ ((s.part p).failed = true → Leaves (.strout n) s)
    ∧ ((s.part p).failed = false → (s.fn (partFn p)).egressBytes + need ≤ egressLimit →
      errsIn s.mem.ssErr (262144 * n + 32 * Dsc.sSa d) (Dsc.lenb d) = [] → Does (.strout n) s (fun t =>
        (∃ q, q ∈ (t.cell n).ops ∧ q.id = o.id ∧ 13 ∈ q.worked) ∧ (∀ m, m ≠ n → t.cell m = s.cell m) ∧ t.mem = s.mem
        ∧ ∃ g rest, (t.fn (partFn p)).egress = (s.fn (partFn p)).egress ++ [g] ++ rest ∧ g.typ = 7 ∧ g.chan = Bnd.chan b ∧ g.ctx = Bnd.octx b
          ∧ (Bnd.due b = 0 → ((s.part p).armed = false ∨ s.now ≤ (s.part p).dl) →
              g.payload = Memory.read s.mem.ss (262144 * n + 32 * Dsc.sSa d) (Dsc.lenb d))))

/-- GATHER: a lane waits while a row of a page of its slots is being copied; when its sequences then meet no fault its work is done. A MATVEC over a slot bound to no row still writes its outputs:
the old words with ACC, and 0 without; every byte outside them stays. -/
def Obligations.GatherServesItsSlots : Prop :=
  ∀ (n l p : Nat) (o : CellOp) (s : State), startedOp s n (9 + l) 6 = some (p, o) →
    let d := o.desc
    let rank := ((List.range l).filter (fun i => (Dsc.lmask d).testBit i)).length
    let start := (List.range (rank * Dsc.nseq d)).foldl (fun at_ _ => Lane.skip s n d at_) (Dsc.qsa d, Dsc.osa d)
    let m := Lane.mat (Memory.read s.mem.ss (262144 * n + 32 * start.1) 32)
    let at_ := 262144 * n + 32 * start.2
    let ou := (m.nr + 7) / 8
    let busy := (List.range (Dsc.nseq d)).any (fun i =>
      let b := s.bindEntry n (s.part p).bset (Dsc.gslot d + rank * Dsc.nseq d + i)
      Bnd.typ b == 1 && s.rowBusy (Bnd.row b * pageBytes) pageBytes)
    (busy = true → Leaves (.gather n l) s)
    ∧ (∀ u, busy = false → Lane.sequences p n l o.id (Dsc.gslot d + rank * Dsc.nseq d) d (List.range (Dsc.nseq d)) start s = .ok u →
      Does (.gather n l) s (fun t => (∀ m, m ≠ n → t.cell m = u.cell m) ∧ { t with cells := u.cells } = u))
    ∧ (Dsc.gmode d = 1 → Dsc.nseq d = 1 → Bnd.typ (s.bindEntry n (s.part p).bset (Dsc.gslot d + rank)) = 0 →
      Lane.inputFmt (Dsc.qfmt d) = true → s.mem.ssErr = [] → start.1 < Dsc.osa d →
      1 ≤ m.k → 1 ≤ m.nr → m.nr ≤ 4096 → m.nvec ≤ 64 → u8 (Memory.read s.mem.ss (262144 * n + 32 * start.1) 32) 9 < 2 →
      allZero (Memory.read s.mem.ss (262144 * n + 32 * start.1) 32) 0x0A 22 = true →
      1 + m.nvec * (Engine.rowBytes (Dsc.qfmt d) m.k / 32) ≤ m.recu → start.1 + m.recu ≤ Dsc.osa d → start.2 + m.nvec * ou ≤ 8192 →
      Does (.gather n l) s (fun t => (∃ q, q ∈ (t.cell n).ops ∧ q.id = o.id ∧ 9 + l ∈ q.worked)
        ∧ (∀ v i k, v < m.nvec → i < m.nr → k < 4 → Memory.byte t.mem.ss (at_ + 32 * ou * v + 4 * i + k)
            = if m.acc = true then Memory.byte s.mem.ss (at_ + 32 * ou * v + 4 * i + k) else 0)
        ∧ (∀ a, a < at_ ∨ at_ + 32 * (m.nvec * ou) ≤ a → Memory.byte t.mem.ss a = Memory.byte s.mem.ss a)
        ∧ t.mem.pan = s.mem.pan ∧ t.mem.pte = s.mem.pte))


-- Scrubbing, repair, ageing, the oscillators and the mesh.

/-- PAN_PATROL_READ in a beat numbered a multiple of 64, not yet used, reads the next unit of the Pan: clean codewords leave all but the
scrubber's own place; a corrected one, the first of its unit to hold an error, is counted, sets CE, and is written back. In another beat,
or while the unit's row is being copied, nothing changes. -/
def Sys2Proof.Claims.PatrolReadAdvancesAndCorrects : Prop :=
  ∀ (pan : Nat) (found : List Ecc) (s : State), pan < 4096 → s.blockRuns (blockOf (pan / 4)) = true → (s.pan pan).patrol < 131072 →
    let x := s.pan pan
    let beat := (s.cell (pan / 4)).beats
    let at_ := (32 * pan + x.patrol / 4096) * pageBytes + 32 * (x.patrol % 4096)
    let idx := at_ / 8
    (beat % 64 ≠ 0 ∨ x.patrolBeat = some beat ∨ s.rowBusy at_ 32 = true → Leaves (.panPatrolRead pan found) s)
    ∧ (beat % 64 = 0 → x.patrolBeat ≠ some beat → s.rowBusy at_ 32 = false →
      (∀ i, i < 4 → 1 ≤ i → Sp.get 0 s.mem.panErr (idx + i) = 0) →
      (Sp.get 0 s.mem.panErr idx = 0 → (∀ e, e ∈ found → e = .clean) → Does (.panPatrolRead pan found) s (fun t =>
        t.pan pan = { x with patrol := (x.patrol + 1) % 131072, patrolBeat := some beat } ∧ (∀ m, m ≠ pan → t.pan m = s.pan m)
        ∧ { t with pans := s.pans } = s))
      ∧ (Sp.get 0 s.mem.panOnce idx = 0 → Sp.get 0 s.mem.panErr idx ≤ 1 → Does (.panPatrolRead pan [.corrected]) s (fun t =>
        (t.pan pan).ce = min (x.ce + 1) 0xFFFFFFFF ∧ bit (t.pan pan).stat 0 = true ∧ (t.pan pan).patrol = (x.patrol + 1) % 131072
        ∧ Sp.get 0 t.mem.panErr idx = 0 ∧ (∀ i, i ≠ idx → Sp.get 0 t.mem.panErr i = Sp.get 0 s.mem.panErr i) ∧ SameBytes s t
        ∧ t.parts = s.parts ∧ t.cells = s.cells)))

/-- ROW_COPY_COMPLETE ends the copy of a row: each of its codewords that is uncorrectable reads as zero, no codeword of the row holds an
error any more, and every other byte of the Pans, and every other error, stays. -/
def Sys2Proof.Claims.RowCopyZeroesLostCodewords : Prop :=
  ∀ (pan layer row : Nat) (s : State), layer < 8 → row < 512 → layer * 512 + row ∈ (s.pan pan).copying →
    let unit (col : Nat) : Nat := (32 * pan + row / 16) * pageBytes + 32 * (256 * (row % 16) + 8 * col + layer)
    let inRow (a : Nat) : Prop := ∃ col, col < 32 ∧ unit col ≤ a ∧ a < unit col + 32
    let lost (a : Nat) : Prop := inRow a ∧ Sp.get 0 s.mem.panErr (a / 8) = 2
    Does (.rowCopyComplete pan layer row) s (fun t => layer * 512 + row ∉ (t.pan pan).copying
      ∧ (∀ a, lost a → Memory.byte t.mem.pan a = 0)
      ∧ (∀ a, inRow a → Sp.get 0 t.mem.panErr (a / 8) = 0 ∧ Sp.get 0 t.mem.panOnce (a / 8) = 0)
      ∧ (∀ a, ¬ inRow a → Sp.get 0 t.mem.panErr (a / 8) = Sp.get 0 s.mem.panErr (a / 8))
      ∧ (∀ a, ¬ lost a → Memory.byte t.mem.pan a = Memory.byte s.mem.pan a)
      ∧ (∀ m, m ≠ pan → t.pan m = s.pan m) ∧ t.mem.ss = s.mem.ss ∧ t.mem.cold = s.mem.cold ∧ t.mem.pte = s.mem.pte
      ∧ { t with mem := s.mem, pans := s.pans } = s)

/-- CELL_REPAIR in a row with fewer than two defects adds the cell's physical column to them, and the logical cell stands on another
column afterwards; a released partition that owns it stops, and one with no step released is to be rebuilt. Cells of other rows stay. In a row with two defects the cell's block goes
out of service. -/
def Sys2Proof.Claims.CellRepairRemapsRow : Prop :=
  ∀ (n reason : Nat) (s : State), n < 1024 →
    ((s.rowDefects (cellRow n)).length < 2 → Does (.cellRepair n reason) s (fun t =>
      t.rowDefects (cellRow n) = s.rowDefects (cellRow n) ++ [s.physCol n] ∧ t.physCol n ≠ s.physCol n
      ∧ (∀ p, p < 16 → (s.part p).hasCell n = true → (s.part p).st = .released → (t.part p).st = .stopped)
      ∧ (∀ p, p < 16 → (s.part p).hasCell n = true → (s.part p).st ≠ .released → (s.part p).recover ≠ 3 → (t.part p).recover = 2)
      ∧ (∀ m, cellRow m ≠ cellRow n → t.cell m = s.cell m)
      ∧ (∀ r, r ≠ cellRow n → t.rowDefects r = s.rowDefects r) ∧ t.mem.cold = s.mem.cold ∧ t.mem.dome = s.mem.dome))
    ∧ (2 ≤ (s.rowDefects (cellRow n)).length → Does (.cellRepair n reason) s (fun t =>
      (t.block (blockOf n)).oos = true ∧ cellRow n ∈ t.bru.noSpare ∧ (∀ p, s.owner (blockOf n) = some p → (t.part p).failed = true)
      ∧ (∀ m, m ≠ n → t.cell m = s.cell m) ∧ t.mem = s.mem))

/-- A due ageing check counts failures in a row, and a passing one counts from 0 again; the eighth lowers AGED by one. The oscillator's
trim code of the block's point moves toward its target; a flit resend is remembered for 1 ms, short of the sixteenth. Nothing else
changes, but for the free value that a trim step draws. -/
def Sys2Proof.Claims.AgeingTrimAndResend : Prop :=
  ∀ (n p : Nat) (below : Bool) (s : State), n < 1024 →
    (s.cellOwner n = some p → (s.part p).pw.st = .p0 → (s.cell n).ageCheck = none →
      (below = false → Does (.ageingCheck n below) s (fun t => (t.cell n).ageFails = 0 ∧ (t.cell n).aged = (s.cell n).aged
        ∧ (∀ m, m ≠ n → t.cell m = s.cell m) ∧ { t with cells := s.cells } = s))
      ∧ (below = true → 7 ≤ (s.cell n).ageFails → (s.cell n).ageTick = none → 17 ≤ (s.cell n).aged → 16 ≤ (s.cell n).fused →
        Does (.ageingCheck n below) s (fun t => (t.cell n).aged + 1 = (s.cell n).aged ∧ (t.cell n).ageFails = 0
          ∧ bit (t.cell n).stat 2 = true ∧ (∀ m, m ≠ n → t.cell m = s.cell m) ∧ { t with cells := s.cells } = s)))
    ∧ (∀ beats, 0 < s.target n → Does (.oscillatorTrim n beats) s (fun t =>
        let pt := (s.block (blockOf n)).point
        (beats < 25 * s.target n → Sp.get 0 (s.cell n).trim pt < Sp.get 0 (t.cell n).trim pt)
        ∧ (25 * s.target n < beats → Sp.get 0 (t.cell n).trim pt ≤ Sp.get 0 (s.cell n).trim pt - 1)
        ∧ (beats = 25 * s.target n → t = s)
        ∧ (∀ m, m ≠ n → t.cell m = s.cell m) ∧ { t with cells := s.cells, freeCtr := s.freeCtr } = s))
    ∧ (∀ dir far, dir < 8 → meshFar n dir = some far →
        ((Sp.get [] (s.cell n).resends dir).filter (fun t => decide (s.now < t + 100000))).length < 15 →
        Does (.meshFlitResend n dir) s (fun t => s.now ∈ Sp.get [] (t.cell n).resends dir
          ∧ { t.cell n with resends := (s.cell n).resends } = s.cell n ∧ (∀ m, m ≠ n → t.cell m = s.cell m)
          ∧ { t with cells := s.cells } = s))

-- Dome firmware's procedures.

/-- At a boundary a decided step is released with its list and its set once the set and the deadline are written and the release's checks
pass, where no command waits for the boundary and no rebuild is due; a failed partition ends its requests instead; outside BOUNDARY
nothing happens. Reading a pinned plate meets no error. -/
def Obligations.BoundaryReleasesDecidedStep : Prop :=
  ∀ (p : Nat) (s : State),
    let x := s.part p
    let may := x.present = true ∧ x.st = .boundary ∧ x.scrub = false ∧ x.recover ≠ 2 ∧ s.bru.depth ≠ 2 ∧ s.bru.halted = false
    (∀ d : Decision, may → x.failed = false → s.holdsRelease p = false → p ∉ s.bru.rebuilding → x.decision = some d →
      s.underScrub p = false →
      let u := (((s.placeData p d.list).outputBase p d).writeBinds p d).stepDeadline p
      let y := { u.part p with list := packList d.list }
      releaseErr u y d.list.length d.bset = 0 → PinnedClean s y (y.listHandles d.list.length) →
      Does (.boundaryProcedure p) s (fun t => (t.part p).st = .released ∧ (t.part p).bset = d.bset
        ∧ (t.part p).decision = some d ∧ (t.part p).step = x.step ∧ (t.part p).handles = y.listHandles d.list.length
        ∧ (t.part p).dl = (u.part p).dl ∧ (x.dl ≠ 0 → (t.part p).dl = x.dl)
        ∧ (∀ q, q ≠ p → t.part q = s.part q) ∧ SameBytes s t ∧ t.mem.bind = u.mem.bind))
    ∧ (may → x.failed = true → Does (.boundaryProcedure p) s (fun t => (t.part p).reqs = [] ∧ (t.part p).st = .boundary
        ∧ (∀ q, q ≠ p → t.part q = s.part q) ∧ t.mem = s.mem))
    ∧ (x.st ≠ .boundary → Leaves (.boundaryProcedure p) s)

/-- The commit record of a completed step is written once, where the log has room: it stands among the log's records with the step's number;
a second write of it changes nothing, and a rebuilt step writes none. -/
def Sys2Proof.Claims.CommitRecordWrittenOnce : Prop :=
  ∀ (p : Nat) (s : State),
    let x := s.part p
    x.st = .complete → x.commitRec = false →
    (∀ k, x.rebuildTo = none → x.pendCkpt = none → x.restoreStep ≤ x.step → (s.tenant x.tenant).key = some k →
      x.logFits (LogRec.encode true (x.plog.head / max 1 x.plog.size) x.step s.now (s.commitItems p x.restoreStep)).length = true →
      Does (.commitRecordWrite p) s (fun t => (t.part p).commitRec = true ∧ (t.part p).st = .complete
        ∧ (∃ r, r ∈ (t.part p).recs ∧ r.commit = true ∧ r.step = x.step ∧ r.pos = x.plog.head)
        ∧ t.mem.pan = s.mem.pan ∧ t.mem.ss = s.mem.ss ∧ (∀ q, q ≠ p → t.part q = s.part q) ∧ Leaves (.commitRecordWrite p) t))
    ∧ (x.rebuildTo.isSome = true → Does (.commitRecordWrite p) s (fun t =>
        t.part p = { x with commitRec := true } ∧ OnlyPart s t p))

/-- REPLAY of a stopped partition leaves it at the boundary of the same step or with that step released again; a failed one stays at the
boundary. STANDBY_RELEASE takes the oldest record held when the partition stands at its step, its frames and pictures are there and no
command waits for the boundary. Reading a pinned plate meets no error. -/
def Sys2Proof.Claims.ReplayAndStandbyRelease : Prop :=
  ∀ (p : Nat) (s : State),
    let named (d : Decision) : List Nat := ({ s.part p with list := packList d.list }).listHandles d.list.length
    ((s.part p).st = .stopped → (s.part p).recover ≠ 2 → (∀ d, (s.part p).decision = some d → PinnedClean s (s.part p) (named d)) →
      Does (.replay p) s (fun t =>
      ((t.part p).st = .boundary ∨ (t.part p).st = .released) ∧ ((s.part p).failed = true → (t.part p).st = .boundary)
      ∧ (t.part p).step = (s.part p).step ∧ (∀ q, q ≠ p → t.part q = s.part q) ∧ SameBytes s t))
    ∧ ((s.part p).st ≠ .stopped → Leaves (.replay p) s)
    ∧ (∀ d rest, (s.part p).held = d :: rest → (s.part p).present = true → (s.part p).failed = false → (s.part p).st = .boundary →
      (s.part p).decision = none → (s.part p).recover ≠ 2 → s.holdsRelease p = false → (∀ c, ((s.part p).ctx c).st ≠ .closing) →
      PinnedClean s (s.part p) (named d) → (s.pair.st = .standby ∨ s.pair.st = .active) → d.step = (s.part p).step →
      s.framesHeld p d = true → s.picturesHeld p d = true →
      Does (.standbyRelease p) s (fun t => (t.part p).held = rest ∧ (∃ e, (t.part p).decision = some e ∧ e.step = d.step)
        ∧ (t.part p).step = d.step ∧ (∀ q, q ≠ p → t.part q = s.part q) ∧ t.mem.ss = s.mem.ss))
    ∧ ((s.part p).held = [] → Leaves (.standbyRelease p) s)

/-- REBUILD puts a partition that needs it and has no step released, or one that a compute reset left, back to the step after its newest
checkpoint, or to step 0 without one, in BOUNDARY and with no decision; it need not be rebuilt again. The completed step of which the log
holds the commit record is committed first, which is not said here. -/
def Sys2Proof.Claims.RebuildRestartsFromCheckpoint : Prop :=
  ∀ (p : Nat) (s : State),
    let x := s.part p
    let first := match x.ckpts.getLast? with | some c => c.step + 1 | none => 0
    x.present = true → x.failed = false → (x.st ≠ .released ∧ x.recover = 2) ∨ p ∈ s.bru.rebuilding →
    ¬ (x.st = .complete ∧ x.commitRec = true) →
    Does (.rebuild p) s (fun t => (t.part p).st = .boundary ∧ (t.part p).step = first ∧ (t.part p).decision = none
      ∧ (t.part p).recover = 0 ∧ p ∉ t.bru.rebuilding ∧ (t.part p).rebuildTo = (if first < x.step then some (x.step - 1) else none)
      ∧ (∀ q, q ≠ p → t.part q = s.part q) ∧ t.clk = s.clk)

/-- SCRUB_COMPLETE frees what was scrubbed once its pages are FREE: the context is empty, the partition is gone with its blocks off, the pair
has no owner; and the scrub is no longer in progress. Before that it changes nothing. -/
def Sys2Proof.Claims.ScrubCompletionFreesResource : Prop :=
  ∀ (what : Scrub) (s : State),
    (what ∉ s.scrubs → Leaves (.scrubComplete what) s)
    ∧ (what ∈ s.scrubs →
      (∀ p c, what = .ctx p c → s.scrubDone p = false → Leaves (.scrubComplete what) s)
      ∧ (∀ p c, what = .ctx p c → s.scrubDone p = true → Does (.scrubComplete what) s (fun t =>
        (t.part p).ctx c = {} ∧ (∀ k, k ≠ c → (t.part p).ctx k = (s.part p).ctx k) ∧ what ∉ t.scrubs ∧ SameBytes s t
        ∧ ∀ q, q ≠ p → t.part q = s.part q))
      ∧ (∀ p, what = .part p → s.scrubDone p = true → Does (.scrubComplete what) s (fun t =>
        t.part p = {} ∧ what ∉ t.scrubs ∧ (∀ b, b ∈ (s.part p).blocks → (t.block b).on = false)
        ∧ (∀ q, q ≠ p → t.part q = s.part q) ∧ t.mem = s.mem))
      ∧ (∀ k, what = .pair k → Does (.scrubComplete what) s (fun t =>
        t.vpair k = {} ∧ what ∉ t.scrubs ∧ (∀ j, j ≠ k → t.vpair j = s.vpair j) ∧ t.mem = s.mem ∧ t.parts = s.parts)))


-- The host port.

namespace Sys2Proof.Claims
open Machine

/-- Nothing but the port state of one function on one port, and what leaves the module, differs. -/
def OnlyPort (s t : State) (h f : Nat) : Prop :=
  { t with hps := s.hps, wire := s.wire } = s ∧ (∀ h' f', 17 * h' + f' ≠ 17 * h + f → t.hp h' f' = s.hp h' f') ∧ s.wire <+: t.wire

/-- A frame of the given type, channel and reference stands in the egress of a function. -/
def Sent (t : State) (f typ chan ref : Nat) (payload : Bytes) : Prop :=
  ∃ g, g ∈ (t.fn f).egress ∧ g.typ = typ ∧ g.chan = chan ∧ g.ref = ref ∧ g.payload = payload

end Sys2Proof.Claims

/-- One aligned word at D, within the credit and with no word held behind it, drains: D advances by 8 and the input buffer grows by its
bytes, but for a stream that lost alignment. One beyond the credit is discarded and counted, and HP_STAT shows it. HP_AP_RESET empties the
aperture, and D is 0. -/
def Sys2Proof.Claims.ApertureWordsDrainInOrder : Prop :=
  ∀ (h f off : Nat) (data : Bytes) (s : State), h ≤ 1 → f ≤ 16 →
    let x := s.hp h f
    let room := (x.credit + 2 ^ 32 - x.pos) % 2 ^ 32
    (data.length = 8 → off % 8 = 0 → off < 4096 → x.words = [] → s.bru.depth ≠ 2 → x.pos < 2 ^ 32 → x.pos % 4096 = off →
      0 < room →
      Does (.apertureWrite h f off data) s (fun t => OnlyPort s t h f ∧ (t.hp h f).pos = (x.pos + 8) % 2 ^ 32
        ∧ (t.hp h f).inbuf = (if x.desync = true then x.inbuf else x.inbuf ++ data) ∧ (t.hp h f).words = []))
    ∧ (data.length = 8 → off % 8 = 0 → off < 4096 → x.words = [] → s.bru.depth ≠ 2 →
      room ≤ (off + 4096 - x.pos % 4096) % 4096 → Does (.apertureWrite h f off data) s (fun t => OnlyPort s t h f
        ∧ (t.hp h f).disc = min (x.disc + 1) 0xFFFFFFFF ∧ bit (t.hp h f).stat 1 = true ∧ (t.hp h f).pos = x.pos
        ∧ (t.hp h f).inbuf = x.inbuf))
    ∧ Does (.hpApReset h f) s (fun t => OnlyPort s t h f ∧ (t.hp h f).pos = 0 ∧ (t.hp h f).inbuf = [] ∧ (t.hp h f).words = []
        ∧ (t.hp h f).desync = false ∧ (t.hp h f).credit = 4096 ∧ (t.hp h f).tail = x.tail)

/-- HP_CTL, HP_RING_HEAD and the interrupt delay: RING_EN takes a 1 only with a legal ring size, and then TAIL is HEAD; HEAD takes what is
written; an enabled vector 0 whose oldest frame has waited its delay signals with MSI-X enabled, or pends while masked. The first ring of a
port that is enabled, and the last that is disabled, changes the latency tolerance. A configuration request is retried until phase 6 has
ended; from then on a read completes with the register's value, and a write changes the register that it names. -/
def Sys2Proof.Claims.RingRegistersAndSignals : Prop :=
  ∀ (h f : Nat) (v : Word) (s : State), h ≤ 1 → f ≤ 16 →
    let x := s.hp h f
    Does (.ringEnWrite h f v) s (fun t => OnlyPort s t h f
      ∧ (bit (t.hp h f).ctl 0 = true ↔ bit v 0 = true ∧ (bit x.ctl 0 = true ∨ 16 ≤ x.size ∧ x.size ≤ 28))
      ∧ (∀ i, 1 ≤ i → i ≤ 3 → bit (t.hp h f).ctl i = bit v i)
      ∧ (t.hp h f).tail = (if bit x.ctl 0 = false ∧ bit (t.hp h f).ctl 0 = true then x.head else x.tail) ∧ (t.hp h f).size = x.size
      ∧ (s.ringsOn h = false → t.ringsOn h = true → Wire.ltr h (some 5) ∈ t.wire)
      ∧ (s.ringsOn h = true → t.ringsOn h = false → Wire.ltr h none ∈ t.wire))
    ∧ Does (.hpRingHeadWrite h f v) s (fun t => t.hp h f = { x with head := v.toNat } ∧ OnlyPort s t h f)
    ∧ (∀ a, x.irqTick = some a → fld x.irqMod 16 16 ≠ 0 → bit x.ctl 1 = true → a + 100 * fld x.irqMod 16 16 ≤ s.now →
      Does (.irqDelayExpiry h f) s (fun t => (t.hp h f).irqPend = 0 ∧ (t.hp h f).irqTick = none ∧ OnlyPort s t h f
        ∧ (x.msixOn = false → t.wire = s.wire)
        ∧ (x.msixOn = true → x.msixMask = false → bit (x.msixWord 3) 0 = false → t.wire = s.wire ++ [.msix h f 0])
        ∧ (x.msixOn = true → (x.msixMask = true ∨ bit (x.msixWord 3) 0 = true) → (t.hp h f).pba.testBit 0 = true)))
    ∧ (∀ (r : CfgReg) (w : Option Nat), 6 ∉ s.bru.ended → (s.fw.forfort = true → f ≠ 0) →
      Does (.configRequest h { f := f, reg := r, write := w }) s (fun t => { t with wire := s.wire } = s ∧ t.wire = s.wire ++ [.config h f true []]))
    ∧ (∀ (r : CfgReg), (6 ∈ s.bru.ended ∨ s.fw.forfort = true ∧ f = 0) →
      Does (.configRequest h { f := f, reg := r }) s (fun t => { t with wire := s.wire } = s ∧ t.wire = s.wire ++ [.config h f false (match r with
        | .identity => [0x1F3A, 0xE700, 0x1F3A, 0x0007, if f = 0 then 0x088000 else 0x120000]
        | .maxPayload => [x.mps]
        | .msixControl => [if x.msixOn = true then 1 else 0, if x.msixMask = true then 1 else 0]
        | .aerStatus => [x.aer]
        | .other => [])])
      ∧ ∀ u : Nat, Does (.configRequest h { f := f, reg := r, write := some u }) s (fun t => OnlyPort s t h f ∧ [Wire.config h f false []] <:+ t.wire
        ∧ (r = .maxPayload → (t.hp h f).mps = if u = 128 ∨ u = 256 ∨ u = 512 then u else x.mps)
        ∧ (r = .msixControl → (t.hp h f).msixOn = u.testBit 0 ∧ (t.hp h f).msixMask = u.testBit 1)
        ∧ (r = .aerStatus → (t.hp h f).aer = x.aer ^^^ (x.aer &&& u))
        ∧ (r = .identity ∨ r = .other → t.hp h f = x)))

/-- A whole frame at the front of the input buffer is taken off it. One that fails a check is answered with a NACK that names its number and
the reason; a DATA, REQUEST or CANCEL frame of a configured channel that carries the expected number and fits enters the log writes. While
a HELLO or SESSION of the port awaits its answer the frames behind it stay. -/
def Sys2Proof.Claims.InboundFrameIsJudged : Prop :=
  ∀ (h f : Nat) (s : State), h ≤ 1 → f ≤ 16 → s.bru.depth ≠ 2 → (s.hp h f).cut = false →
    (s.helloWaits h f = true → Leaves (.inboundFrame h f) s)
    ∧ let b := (s.hp h f).inbuf
    let len := 32 + roundUp (Fr.plen b) 8 + (if (Fr.flags b).testBit 4 = true then 16 else 0)
    let fr : InFrame := { raw := b.take len, port := h, func := f }
    Fr.plen b ≤ 65535 → len ≤ b.length → s.helloWaits h f = false →
    (∀ r, s.frameHead fr = .error r → Does (.inboundFrame h f) s (fun t => (t.hp h f).inbuf = b.drop len
      ∧ Sent t f 0x0E (Fr.chan b) (Fr.seq b) (le 1 r ++ zeros 15) ∧ t.mem = s.mem ∧ t.parts = s.parts
      ∧ ∀ g, g ≠ f → t.fn g = s.fn g))
    ∧ (∀ pt, s.frameHead fr = .ok pt → s.framePayload fr pt = none → f ≠ 0 → [3, 4, 5].contains (Fr.typ fr.raw) = true →
      ((s.fn f).in_ (Fr.chan fr.raw)).configured = true → Fr.seq fr.raw = ((s.fn f).in_ (Fr.chan fr.raw)).expected →
      ((s.fn f).in_ (Fr.chan fr.raw)).fits (fr.raw.take 32 ++ pt) = true →
      Does (.inboundFrame h f) s (fun t => (t.hp h f).inbuf = b.drop len
        ∧ ((t.fn f).in_ (Fr.chan fr.raw)).writing
            = ((s.fn f).in_ (Fr.chan fr.raw)).writing ++ [(Fr.seq fr.raw, fr.raw.take 32 ++ pt, h)]
        ∧ ((t.fn f).in_ (Fr.chan fr.raw)).next = ((s.fn f).in_ (Fr.chan fr.raw)).next
        ∧ t.mem = s.mem ∧ t.parts = s.parts ∧ ∀ g, g ≠ f → t.fn g = s.fn g))

/-- MIRROR_DECISION: the oldest whole frame of a partition function, when it is a MIRROR. One that passes the header checks is refused with a
NACK of FIELD by an ACTIVE unit, and by a STANDBY when its DECISION carries a term below the recorded one; another with the number expected,
that fits, enters the log writes of channel 0. A frame of another type stays where it is. -/
def Obligations.MirrorDecisionIsLoggedOrRefused : Prop :=
  ∀ (h f : Nat) (s : State) (pt : Bytes), h ≤ 1 → 1 ≤ f → f ≤ 16 → s.bru.depth ≠ 2 → (s.hp h f).cut = false →
    let b := (s.hp h f).inbuf
    let len := 32 + roundUp (Fr.plen b) 8 + (if (Fr.flags b).testBit 4 = true then 16 else 0)
    let fr : InFrame := { raw := b.take len, port := h, func := f }
    let x := (s.fn f).in_ (Fr.chan fr.raw)
    Fr.plen b ≤ 65535 → len ≤ b.length → s.helloWaits h f = false →
    (Fr.typ fr.raw ≠ 0x0F → Leaves (.mirrorDecision h f) s)
    ∧ (Fr.typ fr.raw = 0x0F → s.frameHead fr = .ok pt →
      ((s.pair.st = .active ∨ s.pair.st = .standby ∧ u8 pt 0 = 1 ∧ u32 pt 4 < s.pair.term) →
        Does (.mirrorDecision h f) s (fun t => (t.hp h f).inbuf = b.drop len ∧ Sent t f 0x0E (Fr.chan b) (Fr.seq b) (le 1 4 ++ zeros 15)
          ∧ (t.fn f).in_ (Fr.chan fr.raw) = x ∧ SameBytes s t ∧ t.parts = s.parts ∧ t.pair = s.pair))
      ∧ (s.framePayload fr pt = none → x.configured = true → Fr.seq fr.raw = x.expected → x.fits (fr.raw.take 32 ++ pt) = true →
        Does (.mirrorDecision h f) s (fun t => (t.hp h f).inbuf = b.drop len
          ∧ (t.fn f).in_ (Fr.chan fr.raw) = { x with writing := x.writing ++ [(Fr.seq fr.raw, fr.raw.take 32 ++ pt, h)] }
          ∧ SameBytes s t ∧ t.parts = s.parts ∧ t.pair = s.pair ∧ ∀ g, g ≠ f → t.fn g = s.fn g)))

/-- The acknowledgement of the oldest log write of a channel accepts its frame: the next expected number follows it, the frame stands in the
ring at its head, an ACCEPT names the new number, and a CMD or REQUEST is queued. -/
def Sys2Proof.Claims.LogAckAcceptsFrame : Prop :=
  ∀ (f c seq h : Nat) (frame : Bytes) (rest : List (Nat × Bytes × Nat)) (s : State), 1 ≤ f → f ≤ 16 → h ≤ 1 →
    let x := (s.fn f).in_ c
    x.writing = (seq, frame, h) :: rest → [1, 3, 5].contains (Fr.typ frame) = true →
    Does (.logEntryAck f c) s (fun t =>
      ((t.fn f).in_ c).next = (seq + 1) % 2 ^ 64 ∧ ((t.fn f).in_ c).writing = rest
      ∧ ((t.fn f).in_ c).entries = x.entries ++ [{ seq := seq, tick := s.now, pos := x.ring.head, units := logUnits frame, frame := frame }]
      ∧ ((t.fn f).in_ c).ring.head = x.ring.head + logUnits frame ∧ Sent t f 0x0D c ((seq + 1) % 2 ^ 64) []
      ∧ (Fr.typ frame = 1 → (t.fn f).cmds = (s.fn f).cmds ++ [{ seq := seq, port := h, payload := frame.drop 32, tick := s.now }])
      ∧ (Fr.typ frame = 3 → ∃ r, (t.part (f - 1)).reqs = (s.part (f - 1)).reqs ++ [r] ∧ r.chan = c ∧ r.params = frame.drop 32)
      ∧ (∀ p, p ≠ f - 1 → t.part p = s.part p) ∧ t.mem.pan = s.mem.pan ∧ t.mem.ss = s.mem.ss)

/-- The frame that a port takes next is written to its ring, when the ring is enabled, has room and holds a session or the frame needs none:
TAIL moves past the frame and its padding, and the header's 32 bytes are written last. On a full ring it waits and RING_FULL is set. A
frame whose number lies below its channel's watermark leaves unwritten. -/
def Sys2Proof.Claims.EgressWritesRing : Prop :=
  ∀ (h f : Nat) (fr : OutFrame) (s : State), h ≤ 1 → f ≤ 16 → s.nextOut h f = some fr →
    let x := s.hp h f
    let may := s.withheld f fr = false ∧ h ∈ s.targets f fr ∧ h ∉ fr.sent ∧ bit x.ctl 0 = true
      ∧ (fr.port ≠ none ∨ x.session ≠ none)
    (∀ pad, may → x.room (fr.ringBytes (s.sealed h f fr)) = some pad → Does (.egressWrite h f) s (fun t =>
      (t.hp h f).tail = (x.tail + pad + (s.ringBytes h f fr ((x.tail + pad) % 2 ^ 32)).length) % 2 ^ 32
      ∧ (let at_ := x.base + (x.tail + pad) % 2 ^ 32 % 2 ^ x.size
         let b := s.ringBytes h f fr ((x.tail + pad) % 2 ^ 32)
         ∃ pre post, t.wire = s.wire ++ pre ++ [.host h (at_ + 32) (b.drop 32), .host h at_ (b.take 32)] ++ post)
      ∧ t.mem = s.mem ∧ t.parts = s.parts ∧ ∀ g, g ≠ f → t.fn g = s.fn g))
    ∧ (may → x.room (fr.ringBytes (s.sealed h f fr)) = none → Does (.egressWrite h f) s (fun t =>
      bit (t.hp h f).stat 2 = true ∧ t.fns = s.fns ∧ OnlyPort s t h f))
    ∧ (s.withheld f fr = true → Does (.egressWrite h f) s (fun t => t.wire = s.wire ∧ (t.fn f).egress = dropOne fr (s.fn f).egress
      ∧ ((t.fn f).out fr.chan).watermark = ((s.fn f).out fr.chan).watermark))

/-- FLR of PF0 resets its state on that port alone. FLR of a partition's function resets it on both ports and resets the partition, as
PARTITION_RESET does alone, and no command of it is in progress any more: the partition stands at its boundary with nothing in its cells,
its pages and other partitions stay. -/
def Sys2Proof.Claims.FunctionAndPartitionReset : Prop :=
  ∀ (h f : Nat) (s : State), h ≤ 1 →
    Does (.flr h 0) s (fun t => (t.hp h 0).session = none ∧ (t.hp h 0).ctl = 0 ∧ (t.hp h 0).words = [] ∧ OnlyPort s t h 0)
    ∧ (1 ≤ f → f ≤ 16 → s.bru.depth ≠ 2 → (s.part (f - 1)).present = true → (s.part (f - 1)).st ≠ .complete →
      Does (.flr h f) s (fun t => (t.hp 0 f).session = none ∧ (t.hp 1 f).session = none ∧ (t.hp 0 f).inbuf = [] ∧ (t.hp 1 f).inbuf = []
        ∧ (t.part (f - 1)).st = .boundary ∧ (t.part (f - 1)).step = (s.part (f - 1)).step ∧ (t.fn f).open_ = []
        ∧ (t.fn f).bcmds = [] ∧ (t.fn f).images = []
        ∧ (∀ q, q ≠ f - 1 → t.part q = s.part q) ∧ t.mem.pan = s.mem.pan ∧ t.mem.pte = s.mem.pte))
    ∧ (∀ p, p < 16 → (s.part p).present = true → (s.part p).st ≠ .complete → Does (.partitionReset p) s (fun t =>
        (t.part p).st = .boundary ∧ (t.part p).step = (s.part p).step ∧ (t.part p).dl = 0 ∧ (t.part p).trk = 0 ∧ (t.part p).barriers = []
        ∧ (∀ n, n ∈ (s.part p).cells → (t.cell n).ops = [] ∧ (t.cell n).tokens = []
            ∧ ∀ a, 262144 * n ≤ a → a < 262144 * (n + 1) → Memory.byte t.mem.ss a = 0)
        ∧ (∀ n, n ∉ (s.part p).cells → t.cell n = s.cell n) ∧ (∀ q, q ≠ p → t.part q = s.part q)
        ∧ t.mem.pan = s.mem.pan ∧ t.mem.cold = s.mem.cold ∧ t.mem.pte = s.mem.pte))


-- Mailbox commands.

namespace Sys2Proof.Claims
open Machine

/-- Command `c` with code `opc` is the one that function `f` starts next, and no condition of R312 or R314 that stands before its own
rules refuses it. -/
def Starts (s : State) (f opc : Nat) (c : Cmd) : Prop :=
  f ≤ 16 ∧ s.nextCmd f = some c ∧ c.opc = opc ∧ s.cmdRefusal f c = none

/-- Command `c` of function `f` has left the queue, its RESP with RESULT and results stands in the egress, and the other functions
are as they were. -/
def Answered (s t : State) (f : Nat) (c : Cmd) (result : Nat) (body : Bytes) : Prop :=
  Sent t f 2 0 c.seq (respPayload c.opc result body) ∧ (t.fn f).cmds = dropOne c (s.fn f).cmds ∧ ∀ g, g ≠ f → t.fn g = s.fn g

/-- A port has given out its next control number, and no other port has (R301, R309). -/
def NextControl (s t : State) (h : Nat) : Prop := t.ctrl h = (s.ctrl h + 1) % 2 ^ 64 ∧ ∀ g, g ≠ h → t.ctrl g = s.ctrl g

/-- Nothing of a partition differs but the events of its next decision record, and nothing of another partition. -/
def OnlyEvents (s t : State) (p : Nat) : Prop :=
  { t.part p with evts := (s.part p).evts } = s.part p ∧ ∀ q, q ≠ p → t.part q = s.part q

/-- The commands that R311 starts in order, each with its OPC. -/
def mailbox (f : Nat) : List (Nat × Instr) := [
  (0x0003, .chanQuery f), (0x0101, .tenantCreate f), (0x0102, .tenantDelete f), (0x0103, .ddrAssign f), (0x0104, .rangeSet f),
  (0x0105, .partCreate f), (0x0106, .partDelete f), (0x0107, .vpairAlloc f), (0x0108, .vpairRelease f), (0x0109, .policySet f),
  (0x0201, .inchConfig f), (0x0202, .outchConfig f), (0x0203, .toleranceSet f), (0x0301, .ctxOpen f), (0x0302, .ctxClose f),
  (0x0303, .fork f), (0x0304, .seqDrop f), (0x0401, .imgBegin f), (0x0402, .imgBlock f), (0x0403, .imgEnd f), (0x0404, .imgAbort f),
  (0x0405, .plateUnload f), (0x0406, .tableUnload f), (0x0407, .weightsUnload f), (0x0501, .modelRegister f),
  (0x0502, .modelRemove f), (0x0503, .profileSet f), (0x0504, .profileRemove f), (0x0505, .treeSet f), (0x0601, .vctxOpen f),
  (0x0602, .vctxClose f), (0x0603, .keyRequest f), (0x0701, .fwBegin f), (0x0702, .fwBlock f), (0x0703, .fwEnd f),
  (0x0704, .fwAbort f), (0x0705, .fwActivate f), (0x0706, .fwStatus f), (0x0801, .pairConfig f), (0x0802, .pairStatus f),
  (0x0803, .pairUnpair f), (0x0804, .pairSuspect f), (0x0805, .pairResync f), (0x0806, .pairSnapshot f), (0x0901, .attest f)]

end Sys2Proof.Claims

/-- A command that a rule of R312 or R314 refuses is answered with that RESULT and changes nothing else; one with an undefined OPC is
answered UNKNOWN_OP; with no command to start, nothing happens. -/
def Obligations.RefusedMailboxCommandChangesNothing : Prop :=
  ∀ (f : Nat) (s : State), f ≤ 16 → (f = 0 ∨ (s.part (f - 1)).between = true) → ∀ e, e ∈ mailbox f →
    (s.nextCmd f = none → Leaves e.2 s)
    ∧ (∀ (c : Cmd) (r : Nat), s.nextCmd f = some c → c.opc = e.1 → s.cmdRefusal f c = some r →
        Does e.2 s (fun t => Answered s t f c r [] ∧ { t with fns := s.fns } = s))
    ∧ ∀ c : Cmd, s.nextCmd f = some c → knownOpc c.opc = false → (s.fn f).cmds = [c] →
        Does e.2 s (fun t => Answered s t f c 0x0100 [] ∧ { t with fns := s.fns } = s)

/-- HELLO ends the session of the function on that port, and chooses version 1 where the host's range holds it; else NO_COMMON and
VSEL 0. The RESP takes the port's next control number. -/
def Sys2Proof.Claims.HelloChoosesVersion : Prop :=
  ∀ (f : Nat) (c : Cmd) (s : State), f ≤ 16 → s.nextOutside f = some c → c.opc = 1 →
    let ok := decide (u8 c.payload 8 ≤ 1) && decide (1 ≤ u8 c.payload 9)
    Does (.hello f) s (fun t =>
      t.hp c.port f = { s.hp c.port f with
        session := none, endAfter := none, vsel := (if ok then 1 else 0) }
      ∧ NextControl s t c.port
      ∧ Answered s t f c (if ok then 0 else 1)
          (if ok then bytes [1, 1, 1, s.hpRole c.port f % 256, f - 1, c.port] ++ le 2 s.clk.slotId ++ le 8 s.watch.serial ++ le 4 s.fw.version
           else [])
      ∧ (∀ h g, 17 * h + g ≠ 17 * c.port + f → t.hp h g = s.hp h g) ∧ { t with fns := s.fns, hps := s.hps, ctrls := s.ctrls } = s)

/-- SESSION ends the old session. It answers NOT_PINNED to a key other than the pin and WEAK_KEY to an all-zero Z; otherwise the two
keys are those of R426, and the RESP carries Pm and the signature. -/
def Sys2Proof.Claims.SessionDerivesKeys : Prop :=
  ∀ (f : Nat) (c : Cmd) (s : State), f ≤ 16 → s.nextOutside f = some c → c.opc = 2 →
    let ph := slice c.payload 8 32
    let pin := Sp.get none s.watch.pins f
    let priv := s.drawBytes 32
    let pm := Crypto.x25519Public priv.1
    let z := Crypto.x25519 priv.1 ph
    let prk := Crypto.hkdfExtract (le 8 s.watch.serial ++ bytes [f, c.port]) z
    let ended (x : Option Session) : HostPort := { s.hp c.port f with session := x, endAfter := none }
    let others (t : State) : Prop := NextControl s t c.port ∧ (∀ h g, 17 * h + g ≠ 17 * c.port + f → t.hp h g = s.hp h g)
      ∧ { t with fns := s.fns, hps := s.hps, ctrls := s.ctrls, freeCtr := s.freeCtr } = s
    (pin ≠ none → pin ≠ some ph → Does (.session f) s (fun t => t.hp c.port f = ended none ∧ Answered s t f c 1 [] ∧ others t))
    ∧ ((pin = none ∨ pin = some ph) → z.all (· == 0) = true → Does (.session f) s (fun t =>
        t.hp c.port f = ended none ∧ Answered s t f c 2 [] ∧ others t))
    ∧ ((pin = none ∨ pin = some ph) → z.all (· == 0) = false → Does (.session f) s (fun t =>
        t.hp c.port f = ended (some {
          inKey := Crypto.hkdfExpand prk (ascii "EV7 host-to-module" ++ ph ++ pm) 32
          outKey := Crypto.hkdfExpand prk (ascii "EV7 module-to-host" ++ ph ++ pm) 32 })
        ∧ Answered s t f c 0 (pm ++ Crypto.edSign s.watch.idSeed
            (ascii "EV7 session" ++ ph ++ pm ++ le 8 s.watch.serial ++ bytes [f, c.port] ++ le 2 s.clk.slotId)) ∧ others t))

/-- CHAN_QUERY returns the next expected number and the watermark of the channel; INCH_CONFIG starts the input channel's ring empty at
0:0 and ends the function's sessions after its RESP; OUTCH_CONFIG at an idle boundary sets the late policy and the ports, enters the
decision record and moves no number of the channel, whose numbers begin at 0:0; before the boundary it waits. -/
def Sys2Proof.Claims.ChannelConfiguration : Prop :=
  ∀ (f : Nat) (c : Cmd) (s : State),
    let ch := u8 c.payload 8
    let i := (s.fn f).in_ ch
    let o := (s.fn f).out ch
    let x := s.part (f - 1)
    (Starts s f 0x0003 c → Does (.chanQuery f) s (fun t =>
      Answered s t f c 0 (le 8 i.next ++ le 8 o.watermark ++ bytes [b2n i.configured, b2n o.configured, b2n o.discard, o.ports])
      ∧ { t with fns := s.fns } = s))
    ∧ (Starts s f 0x0201 c → ch ≠ 0 → 1 ≤ u32 c.payload 0x10 → u32 c.payload 0x10 ≤ 4096 →
        (s.tenant x.tenant).sharesAll (u32 c.payload 0x0C) (u32 c.payload 0x10) = true → i.entries = [] → i.writing = [] →
        (∀ r, r ∈ x.reqs → r.chan ≠ ch) →
        Does (.inchConfig f) s (fun t => Answered s t f c 0 []
          ∧ (t.fn f).in_ ch = { configured := true, next := 0, ring := { first := u32 c.payload 0x0C, pages := u32 c.payload 0x10 } }
          ∧ (∀ h, h < 2 → t.hp h f = { s.hp h f with
              endAfter := if (s.hp h f).session.isSome then some ((s.fn f).out 0).next else none })
          ∧ { t with fns := s.fns, hps := s.hps } = s))
    ∧ (Starts s f 0x0202 c → x.st = .released → Does (.outchConfig f) s (fun t =>
        (t.fn f).bcmds = (s.fn f).bcmds ++ [c] ∧ (t.fn f).cmds = dropOne c (s.fn f).cmds ∧ (t.fn f).out ch = o
        ∧ (∀ g, g ≠ f → t.fn g = s.fn g) ∧ { t with fns := s.fns } = s))
    ∧ (Starts s f 0x0202 c → x.st = .boundary → x.bdone = true → (s.fn f).bcmds = [] → x.cancels = [] → allZero c.payload 2 6 = true →
        ch ≠ 0 → u8 c.payload 9 ≤ 1 → 1 ≤ u8 c.payload 10 → u8 c.payload 10 ≤ 3 →
        Does (.outchConfig f) s (fun t => Answered s t f c 0 []
          ∧ ((t.fn f).out ch).configured = true ∧ ((t.fn f).out ch).discard = (u8 c.payload 9 == 1)
          ∧ ((t.fn f).out ch).ports = u8 c.payload 10
          ∧ ((t.fn f).out ch).next = o.next ∧ ((t.fn f).out ch).watermark = o.watermark
          ∧ (t.part (f - 1)).evts = x.evts ++ [(7, 0, 0, c.seq)] ∧ OnlyEvents s t (f - 1)
          ∧ { t with fns := s.fns, parts := s.parts } = s))

/-- TENANT_CREATE draws the tenant's key; TENANT_DELETE destroys it and lets its former channels be assigned; DDR_ASSIGN gives or
frees a channel; RANGE_SET sets a SHARED range. -/
def Sys2Proof.Claims.TenantsChannelsAndRanges : Prop :=
  ∀ (f : Nat) (c : Cmd) (s : State),
    let b := c.payload
    let tn := u8 b 8
    (Starts s f 0x0101 c → tn ≤ 7 → (s.tenant tn).present = false → Does (.tenantCreate f) s (fun t => Answered s t f c 0 []
      ∧ (∃ k, t.tenant tn = { present := true, key := some k } ∧ t.watch = { s.watch with keys := s.watch.keys ++ [k] })
      ∧ (∀ u, u ≠ tn → t.tenant u = s.tenant u)
      ∧ { t with fns := s.fns, tenants := s.tenants, watch := s.watch, freeCtr := s.freeCtr } = s))
    ∧ (Starts s f 0x0102 c → tn ≤ 7 → (s.tenant tn).present = true → s.tenantParts tn = false → s.tenantPairs tn = false →
        s.tenantChans tn = [] → Does (.tenantDelete f) s (fun t => Answered s t f c 0 [] ∧ t.tenant tn = {}
          ∧ (∀ u, u ≠ tn → t.tenant u = s.tenant u) ∧ (∀ k, (s.tenant tn).key = some k → k ∉ t.watch.keys)
          ∧ (∀ d, d < 8 → t.dchan d = { s.dchan d with prev := if (s.dchan d).prev = some tn then none else (s.dchan d).prev })
          ∧ { t with fns := s.fns, tenants := s.tenants, watch := s.watch, ddr := s.ddr } = s))
    ∧ (Starts s f 0x0103 c → u8 b 9 = 1 → u8 b 8 ≤ 7 → u8 b 10 ≤ 7 → (s.tenant (u8 b 10)).present = true →
        (s.dchan (u8 b 8)).oos = false → (s.dchan (u8 b 8)).owner = none → (s.dchan (u8 b 8)).prev = none →
        Does (.ddrAssign f) s (fun t => Answered s t f c 0 [] ∧ t.dchan (u8 b 8) = { s.dchan (u8 b 8) with owner := some (u8 b 10) }
          ∧ (∀ d, d ≠ u8 b 8 → t.dchan d = s.dchan d) ∧ { t with fns := s.fns, ddr := s.ddr } = s))
    ∧ (∀ o, Starts s f 0x0103 c → u8 b 9 = 0 → u8 b 8 ≤ 7 → (s.dchan (u8 b 8)).oos = false → (s.dchan (u8 b 8)).owner = some o →
        (s.tenant o).rangeOn (u8 b 8) = false → (s.tenantParts o = false ∨ s.tenantChans o ≠ [u8 b 8]) →
        Does (.ddrAssign f) s (fun t => Answered s t f c 0 []
          ∧ t.dchan (u8 b 8) = { s.dchan (u8 b 8) with owner := none, prev := some o }
          ∧ (∀ d, d ≠ u8 b 8 → t.dchan d = s.dchan d) ∧ { t with fns := s.fns, ddr := s.ddr } = s))
    ∧ (Starts s f 0x0104 c → tn ≤ 7 → u8 b 9 ≤ 15 → (s.tenant tn).present = true → 1 ≤ u32 b 0x10 →
        s.ownsRange tn (u32 b 0x0C) (u32 b 0x10) = true →
        (∀ j a n, j < 16 → j ≠ u8 b 9 → Sp.get none (s.tenant tn).ranges j = some (a, n) →
          u32 b 0x0C + u32 b 0x10 ≤ a ∨ a + n ≤ u32 b 0x0C) → s.storage tn = [] →
        Does (.rangeSet f) s (fun t => Answered s t f c 0 []
          ∧ (∀ j, Sp.get none (t.tenant tn).ranges j = if j = u8 b 9 then some (u32 b 0x0C, u32 b 0x10) else Sp.get none (s.tenant tn).ranges j)
          ∧ (t.tenant tn).key = (s.tenant tn).key ∧ (∀ u, u ≠ tn → t.tenant u = s.tenant u)
          ∧ { t with fns := s.fns, tenants := s.tenants } = s))

/-- PART_CREATE makes a partition of the rectangle with the policy of R363, powers its blocks at point 0, those of the reflex partition at
point 6 (log 154), and gives its function channel 0's ring; POLICY_SET and TOLERANCE_SET replace the policy and TOL; VPAIR_ALLOC gives a pair to a tenant. -/
def Sys2Proof.Claims.PartitionsPoliciesAndPairs : Prop :=
  ∀ (f : Nat) (c : Cmd) (s : State),
    let b := c.payload
    let p := u8 b 8
    (Starts s f 0x0105 c → s.partCreateRefusal b = none → Does (.partCreate f) s (fun t =>
      Sent t f 2 0 c.seq (respPayload 0x0105 0 [])
      ∧ (t.part p).present = true ∧ (t.part p).tenant = u8 b 9 ∧ (t.part p).br0 = u8 b 10 ∧ (t.part p).br1 = u8 b 11
      ∧ (t.part p).bc0 = u8 b 12 ∧ (t.part p).bc1 = u8 b 13 ∧ (t.part p).reflex = (u8 b 14 == 1) ∧ (t.part p).st = .boundary
      ∧ (t.part p).pw.ffloor = 0 ∧ (t.part p).pw.fceil = 15 ∧ (t.part p).pw.pfloor = 0
      ∧ (t.part p).pw.pceil = 16 * ((u8 b 11 + 1 - u8 b 10) * (u8 b 13 + 1 - u8 b 12)) ∧ (t.part p).pw.tol = 0
      ∧ (∀ k, (t.part p).hasBlock k = true → (t.block k).on = true ∧ (t.block k).point = (if u8 b 14 = 1 then 6 else 0))
      ∧ (∀ k, (t.part p).hasBlock k = false → t.block k = s.block k) ∧ (∀ q, q ≠ p → t.part q = s.part q)
      ∧ (t.fn (p + 1)).in_ 0 = { configured := true, ring := { first := u32 b 0x18, pages := u32 b 0x1C } }
      ∧ (∀ g, g ≠ f → g ≠ p + 1 → t.fn g = s.fn g) ∧ { t with fns := s.fns, parts := s.parts, blocks := s.blocks } = s))
    ∧ (Starts s f 0x0109 c → p ≤ 15 → (s.part p).valid = true → u8 b 9 ≤ u8 b 10 → u8 b 10 ≤ 15 → u16 b 0x0C ≤ u16 b 0x0E →
        u16 b 0x0E ≤ 256 → s.policyRefusal p (u8 b 9) (u8 b 10) (u16 b 0x0C) (u16 b 0x0E) = none →
        Does (.policySet f) s (fun t => Answered s t f c 0 [] ∧ (∀ q, q ≠ p → t.part q = s.part q)
          ∧ t.part p = { s.part p with pw := { (s.part p).pw with
              ffloor := u8 b 9, fceil := u8 b 10, pfloor := u16 b 0x0C, pceil := u16 b 0x0E } }
          ∧ { t with fns := s.fns, parts := s.parts } = s))
    ∧ (Starts s f 0x0203 c → Does (.toleranceSet f) s (fun t => Sent t f 2 0 c.seq (respPayload 0x0203 0 [])
        ∧ (t.part (f - 1)).pw.tol = u32 b 8 ∧ (∀ q, q ≠ f - 1 → t.part q = s.part q)
        ∧ ((s.part (f - 1)).pw.st = .p0 → t.part (f - 1) = { s.part (f - 1) with pw := { (s.part (f - 1)).pw with tol := u32 b 8 } }
            ∧ { t with fns := s.fns, parts := s.parts } = s)))
    ∧ (Starts s f 0x0107 c → u8 b 8 ≤ 3 → u8 b 9 ≤ 7 → (s.tenant (u8 b 9)).present = true → s.licVideo = true →
        (s.vpair (u8 b 8)).scrub = false → (s.vpair (u8 b 8)).owner = none →
        Does (.vpairAlloc f) s (fun t => Answered s t f c 0 [] ∧ t.vpair (u8 b 8) = { owner := some (u8 b 9) }
          ∧ (∀ k, k ≠ u8 b 8 → t.vpair k = s.vpair k) ∧ { t with fns := s.fns, vpairs := s.vpairs } = s))
    ∧ (Starts s f 0x0107 c → u8 b 8 ≤ 3 → u8 b 9 ≤ 7 → (s.tenant (u8 b 9)).present = true → s.licVideo = false →
        Does (.vpairAlloc f) s (fun t => Answered s t f c 0x0103 [] ∧ { t with fns := s.fns } = s))

/-- PART_DELETE begins the scrub and is answered at its end: the page-table rows of the partition go to SCRUB, the staging stores read
zero, its streams are removed and its function's waiting commands end. VPAIR_RELEASE of a pair with no context begins the pair's. -/
def Sys2Proof.Claims.DeletionsBeginScrub : Prop :=
  ∀ (f : Nat) (c : Cmd) (s : State),
    let p := u8 c.payload 8
    (Starts s f 0x0106 c → p ≤ 15 → (s.part p).valid = true → Does (.partDelete f) s (fun t =>
      (t.part p).scrub = true ∧ (t.part p).valid = false ∧ (t.part p).deleteCmd = some c.seq ∧ c ∈ (t.fn f).open_ ∧ .part p ∈ t.scrubs
      ∧ (∀ q, q ≠ p → t.part q = s.part q)
      ∧ (∀ r, r ∈ (s.part p).rowsOf → Pte.state (t.pte r) = Pte.scrub ∧ r ∈ t.filling)
      ∧ (∀ r, r ∉ (s.part p).rowsOf → t.pte r = s.pte r)
      ∧ (∀ n a, n ∈ (s.part p).cells → 262144 * n ≤ a → a < 262144 * (n + 1) → Memory.byte t.mem.ss a = 0)
      ∧ (∀ k e, k < 32 → t.stream k = some e → e.part ≠ p)
      ∧ (t.fn (p + 1)).bcmds = [] ∧ (t.fn (p + 1)).open_ = [] ∧ (∀ d, d ∈ (t.fn (p + 1)).cmds → d.outside = true)))
    ∧ (Starts s f 0x0106 c → p ≤ 15 → (s.part p).valid = false → Does (.partDelete f) s (fun t => Answered s t f c 0x0106 []
        ∧ { t with fns := s.fns } = s))
    ∧ (Starts s f 0x0108 c → p ≤ 3 → (s.vpair p).scrub = false → (s.vpair p).owner ≠ none → (∀ j, j < 8 → s.vctx p j = none) →
        Does (.vpairRelease f) s (fun t => t.vpair p = { s.vpair p with scrub := true, releaseCmd := some c.seq }
          ∧ c ∈ (t.fn f).open_ ∧ .pair p ∈ t.scrubs ∧ (∀ k, k ≠ p → t.vpair k = s.vpair k)
          ∧ { t with fns := s.fns, vpairs := s.vpairs, scrubs := s.scrubs } = s))

/-- CTX_OPEN draws the context's key and records the job identity. At an idle boundary CTX_CLOSE cancels the context's requests accepted
before it and moves it to CLOSING, FORK makes a PAUSED sequence of the same pages with REFCNT raised (refused where a page has REFCNT
4,095: log 152), SEQ_DROP frees a PAUSED sequence; each enters the decision record. -/
def Sys2Proof.Claims.ContextsAndSequences : Prop :=
  ∀ (f : Nat) (c : Cmd) (s : State),
    let b := c.payload
    let p := f - 1
    let n := u8 b 8
    let idle := (s.part p).st = .boundary ∧ (s.part p).bdone = true ∧ (s.fn f).bcmds = [] ∧ (s.part p).cancels = []
      ∧ s.forkWaits p c = false ∧ bFieldsOk c = true
    (Starts s f 0x0301 c → n ≤ 63 → 1 ≤ u16 b 0x12 → u16 b 0x12 ≤ 4096 → u16 b 0x10 < u16 b 0x12 → ((s.part p).ctx n).st = .free →
      Does (.ctxOpen f) s (fun t => Answered s t f c 0 []
        ∧ (∃ k, (t.part p).ctx n = { st := .opened, job := u32 b 0x0C, member := u16 b 0x10, members := u16 b 0x12, key := some k }
            ∧ t.watch = { s.watch with keys := s.watch.keys ++ [k] })
        ∧ (∀ m, m ≠ n → (t.part p).ctx m = (s.part p).ctx m) ∧ { t.part p with ctxs := (s.part p).ctxs } = s.part p
        ∧ (∀ q, q ≠ p → t.part q = s.part q)
        ∧ { t with fns := s.fns, parts := s.parts, watch := s.watch, freeCtr := s.freeCtr } = s))
    ∧ (Starts s f 0x0302 c → idle → ((s.part p).ctx n).st = .opened → Does (.ctxClose f) s (fun t =>
        (t.part p).ctx n = { (s.part p).ctx n with st := .closing, closeCmd := some c.seq } ∧ c ∈ (t.fn f).open_
        ∧ (∀ r, r ∈ (t.part p).reqs → r.ctx = n → c.tick ≤ r.accTick) ∧ (∀ m, m ≠ n → (t.part p).ctx m = (s.part p).ctx m)
        ∧ (∀ q, q ≠ p → t.part q = s.part q) ∧ SameBytes s t))
    ∧ (Starts s f 0x0302 c → idle → ((s.part p).ctx n).st ≠ .opened → Does (.ctxClose f) s (fun t =>
        Answered s t f c 0x0104 [] ∧ OnlyEvents s t p ∧ { t with fns := s.fns, parts := s.parts } = s))
    ∧ (∀ q, Starts s f 0x0303 c → idle → (s.part p).seqOf n (u32 b 0x0C) = some q → (s.part p).seqOf n (u32 b 0x10) = none →
        (∀ r, r ∈ q.rows → Pte.refcnt (s.pte r) ≠ 4095) → Does (.fork f) s (fun t => Answered s t f c 0 []
          ∧ (∃ q2, (t.part p).seqOf n (u32 b 0x10) = some q2 ∧ q2.st = .paused ∧ q2.pages = q.pages ∧ q2.counts = q.counts
              ∧ q2.len = q.len ∧ q2.ttl = u32 b 0x14 ∧ q2.expiry = s.now + 100000 * u32 b 0x14)
          ∧ (t.part p).seqOf n (u32 b 0x0C) = some q
          ∧ (q.rows.Nodup → ∀ r, r ∈ q.rows → Pte.refcnt (t.pte r) = Pte.refcnt (s.pte r) + 1)
          ∧ (∀ r, r ∉ q.rows → t.pte r = s.pte r) ∧ SameBytes s t ∧ (∀ u, u ≠ p → t.part u = s.part u)
          ∧ { t with fns := s.fns, parts := s.parts, mem := s.mem } = s))
    ∧ (∀ q r, Starts s f 0x0303 c → idle → (s.part p).seqOf n (u32 b 0x0C) = some q → r ∈ q.rows → Pte.refcnt (s.pte r) = 4095 →
        Does (.fork f) s (fun t => Answered s t f c 0x0104 [] ∧ OnlyEvents s t p ∧ { t with fns := s.fns, parts := s.parts } = s))
    ∧ (∀ q, Starts s f 0x0304 c → idle → (s.part p).seqOf n (u32 b 0x0C) = some q → q.st = .paused → Does (.seqDrop f) s (fun t =>
        Answered s t f c 0 [] ∧ (t.part p).seqOf n (u32 b 0x0C) = none
        ∧ (∀ r, r ∉ q.rows ++ q.work.filterMap id ++ q.scratch → t.pte r = s.pte r) ∧ SameBytes s t
        ∧ (∀ u, u ≠ p → t.part u = s.part u)))

/-- IMG_BEGIN opens an image, IMG_BLOCK writes bytes at an offset, IMG_ABORT discards it. IMG_END ends the handle: an image with a byte
never written, or one that a check refuses, installs nothing and reports the code and the offset; a plate that passes is loaded into
sealed pages under a handle that named nothing. -/
def Obligations.ImageTransfers : Prop :=
  ∀ (f : Nat) (c : Cmd) (s : State),
    let b := c.payload
    let h := u32 b 8
    (Starts s f 0x0401 c → 1 ≤ u8 b 8 → u8 b 8 ≤ 3 → u32 b 0x0C % imgStep (u8 b 8) = 0 → u32 b 0x0C ≤ imgLimit (u8 b 8) →
      ((s.fn f).images.filter (fun e => e.2.isSome)).length < 4 → Does (.imgBegin f) s (fun t =>
        Answered s t f c 0 (le 4 (s.fn f).nextImg) ∧ (t.fn f).image (s.fn f).nextImg = some { kind := u8 b 8, length := u32 b 0x0C }
        ∧ (∀ k, k ≠ (s.fn f).nextImg → (t.fn f).image k = (s.fn f).image k) ∧ { t with fns := s.fns } = s))
    ∧ (∀ i, Starts s f 0x0402 c → (s.fn f).image h = some i → u32 b 0x0C % 8 = 0 → 17 ≤ b.length → b.length ≤ 65528 →
        u32 b 0x0C + (b.length - 16) ≤ i.length → mismatch i.data (u32 b 0x0C) (b.drop 16) = false →
        Does (.imgBlock f) s (fun t => Answered s t f c 0 [] ∧ { t with fns := s.fns } = s
          ∧ ∃ j, (t.fn f).image h = some j ∧ j.kind = i.kind ∧ j.length = i.length
            ∧ (∀ k, k < b.length - 16 → Sp.get none j.data (u32 b 0x0C + k) = b[16 + k]?)
            ∧ ∀ k, (k < u32 b 0x0C ∨ u32 b 0x0C + (b.length - 16) ≤ k) → Sp.get none j.data k = Sp.get none i.data k))
    ∧ (∀ i, Starts s f 0x0404 c → (s.fn f).image h = some i → Does (.imgAbort f) s (fun t => Answered s t f c 0 []
        ∧ (t.fn f).image h = none ∧ (∀ k, k ≠ h → (t.fn f).image k = (s.fn f).image k) ∧ { t with fns := s.fns } = s))
    ∧ (∀ i o, Starts s f 0x0403 c → (s.fn f).image h = some i → (i.kind = 1 ∨ (s.part (f - 1)).between = true) → i.gap = some o →
        Does (.imgEnd f) s (fun t => Answered s t f c 0x17 (le 4 0 ++ le 4 o ++ zeros 64) ∧ (t.fn f).image h = none
          ∧ { t with fns := s.fns } = s))
    ∧ (∀ i r o, Starts s f 0x0403 c → (s.fn f).image h = some i → (i.kind = 1 ∨ (s.part (f - 1)).between = true) → i.gap = none →
        s.checkImage (f - 1) i.kind i.bytes = some (r, o) →
        Does (.imgEnd f) s (fun t => Answered s t f c r (le 4 0 ++ le 4 o ++ zeros 64) ∧ (t.fn f).image h = none
          ∧ { t with fns := s.fns } = s))
    ∧ (∀ i, Starts s f 0x0403 c → (s.fn f).image h = some i → i.kind = 1 → i.gap = none → s.checkImage (f - 1) 1 i.bytes = none →
        Does (.imgEnd f) s (fun t => ∃ n pl, (t.part (f - 1)).plate n = some pl ∧ (s.part (f - 1)).plate n = none
          ∧ Answered s t f c 0 (le 4 n ++ le 4 0 ++ pl.meas) ∧ (t.fn f).image h = none
          ∧ (∀ m, m ≠ n → (t.part (f - 1)).plate m = (s.part (f - 1)).plate m)
          ∧ (∀ r, r ∈ pl.pages → Pte.state (t.pte r) = Pte.sealed_ ∧ Pte.kind (t.pte r) = Pte.plate ∧ Pte.part (t.pte r) = f - 1)
          ∧ (∀ q, q ≠ f - 1 → t.part q = s.part q) ∧ t.mem.ss = s.mem.ss ∧ t.mem.cold = s.mem.cold ∧ t.mem.dome = s.mem.dome))

/-- PLATE_UNLOAD of a handle that no released step and no written decision record names takes effect at once, and otherwise waits;
TABLE_UNLOAD and WEIGHTS_UNLOAD take effect while nothing names the handle, and are answered IN_USE while something does. -/
def Sys2Proof.Claims.UnloadsWaitForUse : Prop :=
  ∀ (f : Nat) (c : Cmd) (s : State),
    let h := u32 c.payload 8
    let p := f - 1
    (Starts s f 0x0405 c → ((s.part p).plate h).isSome = true → (s.part p).plateBusy h = true → Does (.plateUnload f) s (fun t =>
      (t.part p).unloads = (s.part p).unloads ++ [(h, c.seq)] ∧ c ∈ (t.fn f).open_ ∧ (t.part p).plate h = (s.part p).plate h
      ∧ { t with fns := s.fns, parts := s.parts } = s))
    ∧ (Starts s f 0x0405 c → ((s.part p).plate h).isSome = true → (s.part p).plateBusy h = false → Does (.plateUnload f) s (fun t =>
        Answered s t f c 0 [] ∧ (t.part p).plate h = none ∧ (∀ m, m ≠ h → (t.part p).plate m = (s.part p).plate m)
        ∧ (∀ q, q ≠ p → t.part q = s.part q) ∧ SameBytes s t))
    ∧ (∀ w, Starts s f 0x0406 c → (s.part p).between = true → Sp.get none (s.part p).tables h = some w →
        (∀ m e q, m ∈ (s.part p).modelList → e ∈ m.2.profiles → e.2 = some q → profileNames q h = false) →
        Does (.tableUnload f) s (fun t => Answered s t f c 0 [] ∧ Sp.get none (t.part p).tables h = none
          ∧ (∀ q, q ≠ p → t.part q = s.part q) ∧ (∀ r, r ∉ w.rows → t.pte r = s.pte r) ∧ SameBytes s t))
    ∧ (∀ w m k i q, Starts s f 0x0406 c → (s.part p).between = true → Sp.get none (s.part p).tables h = some w →
        (m, k) ∈ (s.part p).modelList → (i, some q) ∈ k.profiles → profileNames q h = true →
        Does (.tableUnload f) s (fun t => Answered s t f c 0x0108 [] ∧ { t with fns := s.fns } = s))
    ∧ (∀ w, Starts s f 0x0407 c → (s.part p).between = true → Sp.get none (s.part p).wimgs h = some w →
        (∀ e, e ∈ (s.part p).modelList → h ∉ e.2.weights) →
        Does (.weightsUnload f) s (fun t => Answered s t f c 0 [] ∧ Sp.get none (t.part p).wimgs h = none
          ∧ (∀ q, q ≠ p → t.part q = s.part q) ∧ (∀ r, r ∉ w.rows → t.pte r = s.pte r) ∧ SameBytes s t))

/-- MODEL_REGISTER fills the slot and raises REFCNT of the model's weights, MODEL_REMOVE empties it; PROFILE_SET registers the 64 bytes
under the index, PROFILE_REMOVE removes them, TREE_SET registers the parents; a refused profile changes nothing. -/
def Sys2Proof.Claims.ModelsProfilesAndTrees : Prop :=
  ∀ (f : Nat) (c : Cmd) (s : State),
    let b := c.payload
    let p := f - 1
    let i := u8 b 8
    let k := u8 b 9
    (Starts s f 0x0501 c → (s.part p).between = true → s.modelRefusal p b = none → Does (.modelRegister f) s (fun t =>
      Answered s t f c 0 [] ∧ (t.part p).model i = some (ModelBlock.model b) ∧ (∀ m, m ≠ i → (t.part p).model m = (s.part p).model m)
      ∧ (∀ h w, ModelBlock.weights b = [h] → Sp.get none (s.part p).wimgs h = some w → w.rows.Nodup →
          ∀ r, (r ∈ w.rows → Pte.refcnt (s.pte r) < 4095 → Pte.refcnt (t.pte r) = Pte.refcnt (s.pte r) + 1)
            ∧ (r ∉ w.rows → t.pte r = s.pte r))
      ∧ (∀ q, q ≠ p → t.part q = s.part q) ∧ SameBytes s t ∧ { t with fns := s.fns, parts := s.parts, mem := s.mem } = s))
    ∧ (∀ m, Starts s f 0x0502 c → (s.part p).between = true → i ≤ 3 → (s.part p).model i = some m →
        (∀ r, r ∈ (s.part p).reqs → r.model ≠ i) → Does (.modelRemove f) s (fun t =>
          Answered s t f c 0 [] ∧ (t.part p).model i = none ∧ (∀ n, n ≠ i → (t.part p).model n = (s.part p).model n)
          ∧ (∀ q, q ≠ p → t.part q = s.part q) ∧ SameBytes s t))
    ∧ (∀ m, Starts s f 0x0503 c → i ≤ 3 → (s.part p).model i = some m →
        match ProfileCheck.check (s.part p) m (slice b 0x10 64) with
        | some r => Does (.profileSet f) s (fun t => Answered s t f c r [] ∧ { t with fns := s.fns } = s)
        | none => Does (.profileSet f) s (fun t => Answered s t f c 0 []
            ∧ (∃ n, (t.part p).model i = some n ∧ { n with profiles := m.profiles } = m
              ∧ ∀ j, Sp.get none n.profiles j = if j = k then some (slice b 0x10 64) else Sp.get none m.profiles j)
            ∧ (∀ n, n ≠ i → (t.part p).model n = (s.part p).model n) ∧ { t with fns := s.fns, parts := s.parts } = s))
    ∧ (∀ m, Starts s f 0x0504 c → i ≤ 3 → (s.part p).model i = some m → (Sp.get none m.profiles k).isSome = true →
        (∀ r, r ∈ (s.part p).reqs → ¬(r.model = i ∧ r.sprof = k)) → Does (.profileRemove f) s (fun t => Answered s t f c 0 []
          ∧ (∃ n, (t.part p).model i = some n ∧ { n with profiles := m.profiles } = m
            ∧ ∀ j, Sp.get none n.profiles j = if j = k then none else Sp.get none m.profiles j)
          ∧ { t with fns := s.fns, parts := s.parts } = s))
    ∧ (∀ m, Starts s f 0x0505 c → i ≤ 3 → k ≤ 15 → (s.part p).model i = some m → 1 ≤ u8 b 10 → u8 b 10 ≤ 64 →
        (∀ j, j < u8 b 10 → u8 b (0x10 + j) = 0xFF ∨ u8 b (0x10 + j) < j) → allZero b (0x10 + u8 b 10) (64 - u8 b 10) = true →
        Does (.treeSet f) s (fun t => Answered s t f c 0 []
          ∧ (∃ n, (t.part p).model i = some n ∧ { n with trees := m.trees } = m
            ∧ Sp.get none n.trees k = some ((List.range (u8 b 10)).map (fun j => u8 b (0x10 + j))))
          ∧ { t with fns := s.fns, parts := s.parts } = s))

/-- VCTX_OPEN that no check of R252 refuses opens the lowest free context of its pair; VCTX_CLOSE of a context with no work left
removes it and the RTP entries that name it, with a VIDEO_STREAM record where it was discarding a sequence, and one with work left waits
for its last picture; KEY_REQUEST at an idle boundary marks an encode context. -/
def Sys2Proof.Claims.VideoContextCommands : Prop :=
  ∀ (f : Nat) (c : Cmd) (s : State),
    let p := f - 1
    let v := u8 c.payload 8
    let b := slice c.payload 0x10 128
    (Starts s f 0x0601 c → v ≤ 31 → s.findVctx p v = none → s.vctxRefusal (s.part p).tenant b = none → Does (.vctxOpen f) s (fun t =>
      ∃ j, j < 8 ∧ s.vctx (Vid.pair b) j = none ∧ (∀ n, n < j → s.vctx (Vid.pair b) n ≠ none)
        ∧ Answered s t f c 0 (le 1 j) ∧ t.vctx (Vid.pair b) j = some { part := p, vctx := v, params := b, full := Vid.initFull b }
        ∧ (∀ k n, ¬(k = Vid.pair b ∧ n = j) → t.vctx k n = s.vctx k n) ∧ { t with fns := s.fns, vpairs := s.vpairs } = s))
    ∧ (∀ r, Starts s f 0x0601 c → v ≤ 31 → s.findVctx p v = none → s.vctxRefusal (s.part p).tenant b = some r →
        Does (.vctxOpen f) s (fun t => Answered s t f c r [] ∧ { t with fns := s.fns } = s))
    ∧ (∀ k j x, Starts s f 0x0602 c → s.findVctx p v = some (k, j, x) → Does (.vctxClose f) s (fun t =>
        if x.busy then t.vctx k j = some { x with closeCmd := some c.seq } ∧ c ∈ (t.fn f).open_
        else (x.discarded = 0 → Answered s t f c 0 [] ∧ t.faults = s.faults)
          ∧ (x.discarded ≠ 0 → Sent t f 2 0 c.seq (respPayload 0x0602 0 [])
              ∧ Sp.get 0 t.faults.totals 24 = sat16 (Sp.get 0 s.faults.totals 24 + 1) ∧ bit (t.vpair k).stat 4 = true)
          ∧ t.vctx k j = none
          ∧ ∀ n e, n < 32 → t.stream n = some e → ¬(e.kind = 1 ∧ e.part = p ∧ e.vctx = v)))
    ∧ (∀ k j x, Starts s f 0x0603 c → (s.part p).st = .boundary → (s.part p).bdone = true → (s.fn f).bcmds = [] →
        (s.part p).cancels = [] → allZero c.payload 2 6 = true → v ≤ 31 → s.findVctx p v = some (k, j, x) → x.isDecode = false →
        Does (.keyRequest f) s (fun t => Answered s t f c 0 [] ∧ t.vctx k j = some { x with keyReq := true }
          ∧ { t with fns := s.fns, vpairs := s.vpairs, parts := s.parts } = s))

/-- ATTEST returns a report of the function's own partition signed by the device identity: MAGIC, the count of its handles, the count
in this report, PART, TENANT and SLOT_ID, then the version and the nonce. -/
def Sys2Proof.Claims.AttestationReport : Prop :=
  ∀ (f : Nat) (c : Cmd) (s : State), Starts s f 0x0901 c → 40 ≤ c.payload.length → Does (.attest f) s (fun t =>
    let n := (s.part (f - 1)).attestEntries.length
    ∃ m, Answered s t f c 0 (m ++ Crypto.edSign s.watch.idSeed m)
      ∧ m.take 48 = le 4 0x45545441 ++ le 2 n ++ le 2 (min 800 (n - u16 c.payload 0x28)) ++ bytes [f - 1, (s.part (f - 1)).tenant]
          ++ le 2 s.clk.slotId ++ le 4 s.fw.version ++ slice c.payload 8 32
      ∧ { t with fns := s.fns } = s)


-- Firmware and pair.

namespace Sys2Proof.Claims
open Machine

/-- A fault has been raised: the total of its class counts it, and where no collection window is open one record more stands in the
history, with these fields and the next NUM, and has gone to PF0. -/
def Raised (s t : State) (cls reason scope action part loc detail : Nat) : Prop :=
  Sp.get 0 t.faults.totals cls = min 65535 (Sp.get 0 s.faults.totals cls + 1)
    ∧ (s.faults.windows = [] → t.faults.num = s.faults.num + 1 ∧ ∃ r, t.faults.hist = lastN 256 (s.faults.hist ++ [r])
        ∧ r.cls = cls ∧ r.reason = reason ∧ r.scope = scope ∧ r.action = action ∧ r.part = part ∧ r.loc = loc
        ∧ r.detail = detail % 2 ^ 32 ∧ r.count = 1 ∧ r.tick = s.now ∧ r.num = s.faults.num % 2 ^ 32
        ∧ (cls ≠ 20 → Sent t 0 0x0C 0 0 r.bytes))

end Sys2Proof.Claims

/-- FW_BEGIN opens a transfer into a slot that is not busy, FW_BLOCK writes into it, FW_END verifies and makes the slot PENDING or
EMPTY, FW_ABORT ends the transfer; FW_STATUS returns both slots. -/
def Sys2Proof.Claims.FirmwareTransfer : Prop :=
  ∀ (f : Nat) (c : Cmd) (s : State),
    let b := c.payload
    (Starts s f 0x0701 c → u8 b 8 ≤ 1 → u32 b 0x0C % 8 = 0 → 256 ≤ u32 b 0x0C → u32 b 0x0C ≤ 33554432 → s.slotBusy (u8 b 8) = false →
      Does (.fwBegin f) s (fun t => Answered s t f c 0 [] ∧ t.fw.xfer = some (u8 b 8, u32 b 0x0C) ∧ t.fw.data = []
        ∧ t.fw.slot (u8 b 8) = { st := .writing } ∧ t.fw.slot (1 - u8 b 8) = s.fw.slot (1 - u8 b 8)
        ∧ { t with fns := s.fns, fw := s.fw } = s))
    ∧ (∀ i len, Starts s f 0x0702 c → s.fw.xfer = some (i, len) → u32 b 8 % 8 = 0 → 1 ≤ u32 b 0x0C → u32 b 0x0C ≤ 65512 →
        16 + u32 b 0x0C ≤ b.length → u32 b 8 + u32 b 0x0C ≤ len → mismatch s.fw.data (u32 b 8) (slice b 0x10 (u32 b 0x0C)) = false →
        Does (.fwBlock f) s (fun t => Answered s t f c 0 [] ∧ { t.fw with data := s.fw.data } = s.fw
          ∧ (∀ k, k < u32 b 0x0C → Sp.get none t.fw.data (u32 b 8 + k) = b[16 + k]?)
          ∧ (∀ k, (k < u32 b 8 ∨ u32 b 8 + u32 b 0x0C ≤ k) → Sp.get none t.fw.data k = Sp.get none s.fw.data k)
          ∧ { t with fns := s.fns, fw := s.fw } = s))
    ∧ (∀ i len, Starts s f 0x0703 c → s.fw.xfer = some (i, len) → i ≤ 1 →
        let full := (List.range len).all (fun k => (Sp.get none s.fw.data k).isSome)
        let img := (List.range len).map (fun k => (Sp.get none s.fw.data k).getD 0)
        match (FwImage.refusal s.watch.fwKey s.watch.serial full img).or (FwImage.flashRefusal s.fw i) with
        | some r => Does (.fwEnd f) s (fun t => Answered s t f c r [] ∧ t.fw.slot i = {} ∧ t.fw.slot (1 - i) = s.fw.slot (1 - i)
            ∧ t.fw.xfer = none ∧ { t with fns := s.fns, fw := s.fw } = s)
        | none => Does (.fwEnd f) s (fun t => Answered s t f c 0 (le 4 (u32 img 0x10) ++ Crypto.sha512 (FwImage.message img))
            ∧ (t.fw.slot i).st = .pending ∧ (t.fw.slot i).image = img ∧ (t.fw.slot i).version = u32 img 0x10
            ∧ (t.fw.slot i).setVer = u16 img 0x14 ∧ t.fw.slot (1 - i) = s.fw.slot (1 - i) ∧ t.fw.xfer = none
            ∧ { t with fns := s.fns, fw := s.fw } = s))
    ∧ (∀ i len, Starts s f 0x0704 c → s.fw.xfer = some (i, len) → i ≤ 1 → Does (.fwAbort f) s (fun t => Answered s t f c 0 []
        ∧ t.fw.xfer = none ∧ t.fw.slot i = {} ∧ t.fw.slot (1 - i) = s.fw.slot (1 - i) ∧ { t with fns := s.fns, fw := s.fw } = s))
    ∧ (Starts s f 0x0706 c → s.fw.window = none → Does (.fwStatus f) s (fun t =>
        let show_ (x : FwSlot) : Bytes := le 1 x.st.code ++ zeros 3 ++ le 4 x.version ++ le 2 x.setVer ++ zeros 2 ++ fit 64 x.meas
        Answered s t f c 0 (bytes [s.fw.running, s.fw.fbCount, b2n s.fw.forfort, 0] ++ le 4 0 ++ show_ s.fw.a ++ show_ s.fw.b)
        ∧ { t with fns := s.fns } = s))

/-- FW_ACTIVATE of a PENDING slot puts it on trial by a compute reset with SOURCE 5, or marks it FAILED where its signature fails.
A trial that meets the conditions of R445 is confirmed: CURRENT, with FB_COUNT 0 and the other slot PREVIOUS. A window that closes
first fails the running slot and counts the fallback. -/
def Sys2Proof.Claims.FirmwareTrialAndFallback : Prop :=
  (∀ (f : Nat) (c : Cmd) (s : State),
    let i := u8 c.payload 8
    Starts s f 0x0705 c → i ≤ 1 → (s.fw.slot i).st = .pending → s.fw.forfort = false → s.bru.isReady = true → s.bru.depth = 0 →
    (s.fw.slotIn .trial) = none →
    (FwImage.signed s.watch.fwKey (s.fw.slot i).image = false → Does (.fwActivate f) s (fun t => Answered s t f c 5 []
      ∧ t.fw.slot i = { s.fw.slot i with st := .failed } ∧ t.fw.slot (1 - i) = s.fw.slot (1 - i) ∧ { t with fns := s.fns, fw := s.fw } = s))
    ∧ (FwImage.signed s.watch.fwKey (s.fw.slot i).image = true → Does (.fwActivate f) s (fun t =>
        t.fw.slot i = { s.fw.slot i with st := .trial } ∧ t.fw.running = i ∧ t.fw.version = (s.fw.slot i).version
        ∧ t.fw.activate = some c.seq ∧ t.clk.source = 5 ∧ t.clk.kind = 3 ∧ t.bru.depth = 2 ∧ t.bru.isReady = false
        ∧ t.tenants = s.tenants)))
  ∧ (∀ s : State, s.fw.window.isSome = true → 6 ≤ s.coresRunning → s.fw.inForce.setVer = s.fw.setVer → s.fw.waiting = [] →
      s.bru.rebuilding = [] → s.bru.depth = 0 → s.fw.running ≤ 1 → (s.fw.slot s.fw.running).st = .trial →
      Does .firmwareConfirm s (fun t => t.fw.window = none ∧ t.fw.fbCount = 0
        ∧ t.fw.slot s.fw.running = { s.fw.slot s.fw.running with st := .current }
        ∧ ((s.fw.slot (1 - s.fw.running)).st = .current → (t.fw.slot (1 - s.fw.running)).st = .previous)
        ∧ (t.fw.set0 = s.fw.inForce ∨ t.fw.set1 = s.fw.inForce) ∧ { t with fw := s.fw } = s))
  ∧ ∀ (s : State) (n : Nat), s.fw.window = some n →
      (s.now < n → Leaves .confirmationWindowExpiry s)
      ∧ (n ≤ s.now → s.fw.forfort = false → s.fw.running ≤ 1 → Does .confirmationWindowExpiry s (fun t =>
          t.fw.slot s.fw.running = { s.fw.slot s.fw.running with st := .failed } ∧ t.fw.fbCount = s.fw.fbCount + 1 ∧ t.fw.window = none
          ∧ (if s.fw.fbCount + 1 < 3 ∧ (s.fw.slot (1 - s.fw.running)).st = .previous then
              t.fw.running = 1 - s.fw.running ∧ (t.fw.slot t.fw.running).st = .current ∧ t.clk.kind = 2 ∧ t.clk.source = 6
            else t.fw.forfort = true ∧ t.fw.running = s.fw.running)
          ∧ t.tenants = []))

/-- PAIR_CONFIG moves an UNPAIRED module to WAIT with the partner's serial, the pair number and the mask; PAIR_STATUS shows the state,
the term and each paired partition; PAIR_UNPAIR returns to UNPAIRED; PAIR_SUSPECT raises PAIR_DIVERGENCE; PAIR_RESYNC and PAIR_SNAPSHOT
begin and are answered at their ends. In another state each is answered ROLE. -/
def Obligations.PairCommandsMoveByState : Prop :=
  ∀ (f : Nat) (c : Cmd) (s : State),
    let b := c.payload
    (Starts s f 0x0801 c → (∀ p, p < 16 → (u16 b 0x14).testBit p = true → (s.part p).present = true → (s.part p).reflex = false) →
      (s.pair.st = .unpaired → Does (.pairConfig f) s (fun t => Answered s t f c 0 [] ∧ t.pair.st = .wait ∧ t.pair.pserial = u64 b 8
        ∧ t.pair.pairnum = u32 b 0x10 ∧ t.pair.pmask = u16 b 0x14 ∧ t.pair.term = s.pair.term ∧ { t with fns := s.fns, pair := s.pair } = s))
      ∧ (s.pair.st ≠ .unpaired → Does (.pairConfig f) s (fun t => Answered s t f c 1 [] ∧ { t with fns := s.fns } = s)))
    ∧ (Starts s f 0x0802 c → Does (.pairStatus f) s (fun t => ∃ h es,
        Answered s t f c 0 (bytes [s.pair.st.code, h, 0, 0] ++ le 4 s.pair.term ++ le 2 s.pair.pmask ++ zeros 6 ++ es) ∧ es.length = 256
        ∧ (s.pair.suspect = true → h = 3) ∧ (s.pair.suspect = false → s.catchingUp = false → h = if s.degraded then 2 else 0)
        ∧ (s.pair.suspect = false → s.catchingUp = true → s.degraded = false → h = 1)
        ∧ (∀ p, p < 16 → s.pair.pmask.testBit p = false → slice es (16 * p) 16 = zeros 16)
        ∧ (∀ p, p < 16 → s.pair.pmask.testBit p = true → (s.part p).step ≠ 0 →
            slice es (16 * p) 16 = le 8 ((s.part p).step - 1) ++ le 4 (s.part p).held.length ++ zeros 4)
        ∧ { t with fns := s.fns, freeCtr := s.freeCtr } = s))
    ∧ (Starts s f 0x0803 c → s.pair.st = .wait ∨ s.pair.st = .isolated ∨ s.pair.st = .stale → Does (.pairUnpair f) s (fun t =>
        Answered s t f c 0 [] ∧ t.pair.st = .unpaired ∧ t.pair.pserial = 0 ∧ t.pair.pairnum = 0 ∧ t.pair.term = 0 ∧ t.pair.pmask = 0
        ∧ (∀ p, p < 16 → s.pair.pmask.testBit p = true → (t.part p).held = []) ∧ (∀ p, s.pair.pmask.testBit p = false → t.part p = s.part p)
        ∧ { t with fns := s.fns, pair := s.pair, parts := s.parts } = s))
    ∧ (Starts s f 0x0804 c → u8 b 8 ≤ 15 → (s.part (u8 b 8)).present = true → Does (.pairSuspect f) s (fun t =>
        Sent t f 2 0 c.seq (respPayload 0x0804 0 []) ∧ t.pair = { s.pair with suspect := true }
        ∧ Raised s t 15 0 1 0 (u8 b 8) (u32 b 0x10) (u8 b 9) ∧ t.parts = s.parts))
    ∧ (Starts s f 0x0805 c → s.pair.st = .stale ∨ s.pair.st = .wait → Does (.pairResync f) s (fun t => t.pair.st = .resync
        ∧ t.pair.resyncCmd = some c.seq ∧ c ∈ (t.fn f).open_ ∧ { t with fns := s.fns, pair := s.pair } = s))
    ∧ (Starts s f 0x0806 c → u16 b 8 ≠ 0 → (∀ p, p < 16 → (u16 b 8).testBit p = true → (s.part p).present = true) →
        (s.pair.st = .active → Does (.pairSnapshot f) s (fun t => t.pair.snapLeft = u16 b 8 ∧ t.pair.snapCmd = some c.seq
          ∧ c ∈ (t.fn f).open_ ∧ { t with fns := s.fns, pair := s.pair } = s))
        ∧ (s.pair.st ≠ .active → Does (.pairSnapshot f) s (fun t => Answered s t f c 1 [] ∧ { t with fns := s.fns } = s)))

/-- A ROLE frame that counts records its TERM and moves the pair state by R338, and ROLE ACTIVE sets the lease to 10,000 ticks; a frame
that fails R340 only counts. The lease's expiry turns ACTIVE into HOLD. The heartbeat carries the state and the term, and silence of the
arbiter for 50 µs is reported once. -/
def Obligations.ArbiterRolesLeaseAndHeartbeat : Prop :=
  (∀ (b : Bytes) (s : State), lineOk b = false →
    ∀ i, i = Instr.roleActive b ∨ i = Instr.roleStandby b ∨ i = Instr.roleIsolate b →
      Does i s (fun t => t.pair = { s.pair with bad := s.pair.bad + 1 } ∧ { t with pair := s.pair } = s))
  ∧ (∀ (b : Bytes) (s : State), lineOk b = true → u8 b 0x12 = 1 → s.pair.term ≤ u32 b 4 → s.pair.st ≠ .unpaired →
      (s.pair.arb = none ∨ s.pair.arb = some (u64 b 8, u16 b 0x10)) →
      (u8 b 2 = 1 → s.pair.st = .wait ∨ s.pair.st = .standby ∨ s.pair.st = .active ∨ s.pair.st = .hold → Does (.roleActive b) s (fun t =>
        t.pair.st = .active ∧ t.pair.lease = some (s.now + 10000) ∧ t.pair.term = u32 b 4 ∧ t.pair.lastRole = some s.now
        ∧ { t with pair := s.pair, dome := s.dome } = s))
      ∧ (u8 b 2 = 2 → s.pair.st = .wait ∨ s.pair.st = .standby → Does (.roleStandby b) s (fun t =>
          t.pair.st = .standby ∧ t.pair.term = u32 b 4 ∧ { t with pair := s.pair, dome := s.dome } = s))
      ∧ (u8 b 2 = 2 → s.pair.st = .active ∨ s.pair.st = .hold → Does (.roleStandby b) s (fun t =>
          t.pair.st = .stale ∧ t.pair.lease = none ∧ t.pair.term = u32 b 4 ∧ { t with pair := s.pair, dome := s.dome } = s))
      ∧ (u8 b 2 = 3 → Does (.roleIsolate b) s (fun t => t.pair.st = .isolated ∧ t.pair.lease = none ∧ t.pair.term = u32 b 4
          ∧ { t with pair := s.pair, dome := s.dome } = s)))
  ∧ (∀ (n : Nat) (s : State), s.pair.st = .active → s.pair.lease = some n →
      (s.now < n → Leaves .leaseExpiry s)
      ∧ (n ≤ s.now → Does .leaseExpiry s (fun t => t.pair = { s.pair with st := .hold, lease := none }
          ∧ (3 ∈ t.dome.pend ∨ 3 ∈ t.dome.refire) ∧ { t with pair := s.pair, dome := s.dome } = s)))
  ∧ (∀ s : State, s.pair.st ≠ .unpaired → s.board.removed = false →
      ((∃ n, s.pair.beatAt = some n ∧ s.now < n + 1000) → Leaves .heartbeat s)
      ∧ ((s.pair.beatAt = none ∨ ∃ n, s.pair.beatAt = some n ∧ n + 1000 ≤ s.now) → Does .heartbeat s (fun t => ∃ b,
          t.wire = s.wire ++ [.line b] ∧ b.length = 32 ∧ b.take 3 = bytes [1, 1, s.pair.st.code] ∧ slice b 4 4 = le 4 s.pair.term
          ∧ slice b 8 8 = le 8 s.watch.serial ∧ slice b 20 4 = le 4 s.pair.count ∧ b.drop 28 = le 4 (Crypto.crc32c (b.take 28))
          ∧ t.pair = { s.pair with count := (s.pair.count + 1) % 2 ^ 32, beatAt := some s.now }
          ∧ { t with wire := s.wire, pair := s.pair, freeCtr := s.freeCtr } = s)))
  ∧ ∀ (n : Nat) (s : State), s.pair.lastRole = some n → s.pair.st ≠ .unpaired →
      (s.now < n + 5000 → Leaves .arbiterLink s) ∧ (s.pair.silent = true → Leaves .arbiterLink s)
      ∧ (n + 5000 ≤ s.now → s.pair.silent = false → Does .arbiterLink s (fun t => t.pair = { s.pair with silent := true }
          ∧ Raised s t 14 0 5 0 255 5 s.pair.st.code ∧ t.parts = s.parts))

/-- The snapshot of a partition goes to egress on channel 0 as MIRROR frames of the step: SNAP_BEGIN, the tables, the pages, SNAP_END
with the count and the hash. A unit in RESYNC collects the bodies, and SNAP_END ends the transfer: with matching count, hash and handles
the partition stands at step S + 1 and the unit is STANDBY, else the snapshot is discarded. -/
def Obligations.SnapshotsTransferPartitions : Prop :=
  (∀ (p : Nat) (c : Checkpoint) (ins : List (Nat × Nat)) (s : State), (s.part p).snapshot = some (c, ins) → s.pair.snapSent.testBit p = false →
    (c.step + 1 < (s.part p).step ∨ ((s.part p).step = c.step + 1 ∧ (s.part p).st = .complete)) → s.pair.snapLeft ≠ 0 →
    Does (.snapshotTransmit p) s (fun t =>
      let bodies := snapBodies (s.part p) (s.fn (p + 1)) c ins
      let head (k : Nat) : Bytes := le 1 k ++ zeros 3 ++ le 4 s.pair.term ++ le 8 c.step
      (∀ e, e ∈ bodies → Sent t (p + 1) 0x0F 0 0 (head e.1 ++ e.2))
      ∧ Sent t (p + 1) 0x0F 0 0 (head 5 ++ le 4 bodies.length ++ Crypto.sha512 (bodies.flatMap (·.2)))
      ∧ t.pair.snapSent.testBit p = true ∧ (∀ g, g ≠ p + 1 → t.fn g = s.fn g) ∧ { t with fns := s.fns, pair := s.pair } = s))
  ∧ ∀ (f : Nat) (m : Bytes) (rest : List Bytes) (s : State), 1 ≤ f → f ≤ 16 → (s.fn f).mirrors = m :: rest → s.pair.st = .resync →
      s.pair.pmask.testBit (f - 1) = true → s.pair.snapDone.testBit (f - 1) = false →
      let p := f - 1
      let x := s.snapRx p
      let own := (s.part p).handleBytes
      let took (t : State) : Prop := (t.fn f).mirrors = rest ∧ ∀ g, g ≠ f → t.fn g = s.fn g
      (u8 m 0 = 2 → Does (.snapBegin f) s (fun t => took t ∧ (t.snapRx p).begun = true ∧ (t.snapRx p).step = u64 m 8
        ∧ ((t.snapRx p).ok = true ↔ (m.drop 16).take own.length = own) ∧ (t.snapRx p).body = m.drop 16 ∧ (t.snapRx p).frames = 1
        ∧ t.parts = s.parts ∧ t.mem = s.mem))
      ∧ (u8 m 0 = 3 → x.begun = true → Does (.snapDome f) s (fun t => took t ∧ (t.snapRx p).body = x.body ++ m.drop 16
          ∧ (t.snapRx p).frames = x.frames + 1 ∧ (t.snapRx p).dome = fit (u32 m 0x10) x.dome ++ m.drop 0x14 ∧ t.parts = s.parts ∧ t.mem = s.mem))
      ∧ (u8 m 0 = 4 → x.begun = true → Does (.snapPage f) s (fun t => took t ∧ (t.snapRx p).body = x.body ++ m.drop 16
          ∧ (t.snapRx p).frames = x.frames + 1 ∧ (t.snapRx p).pages.length = x.pages.length + 1 ∧ t.parts = s.parts ∧ t.mem = s.mem))
      ∧ (u8 m 0 = 5 → (x.begun = true ∧ x.ok = true ∧ u32 m 0x10 = x.frames ∧ slice m 0x14 64 = Crypto.sha512 x.body) →
          Does (.snapEnd f) s (fun t => t.pair.st = .standby ∧ t.pair.snapDone.testBit p = true ∧ (t.part p).step = x.step + 1
            ∧ (t.part p).st = .boundary ∧ (∀ d, d ∈ (t.part p).held → x.step < d.step) ∧ (∀ q, q ≠ p → t.part q = s.part q)
            ∧ (∀ n, s.pair.resyncCmd = some n → Sent t 0 2 0 n (respPayload 0x0805 0 []))))
      ∧ (u8 m 0 = 5 → ¬(x.begun = true ∧ x.ok = true ∧ u32 m 0x10 = x.frames ∧ slice m 0x14 64 = Crypto.sha512 x.body) →
          Does (.snapEnd f) s (fun t => t.pair.st = .resync ∧ t.pair.snapFailed = true ∧ t.parts = s.parts ∧ t.mem = s.mem
            ∧ (∀ n, s.pair.resyncCmd = some n → Sent t 0 2 0 n (respPayload 0x0805 2 []))))


-- Where an operation stops.

/-- PANRD whose first codeword in error is uncorrectable, in a LIVE or SEALED page of its own cell whose layer has a spare row left: no byte is
delivered and the operation makes no further progress, POISON is set in the page's entry, PAN_UE and UE show the error, the partition
stops, and no other partition changes. -/
def Sys2Proof.Claims.UncorrectableReadStops : Prop :=
  ∀ (n pan p i : Nat) (o : CellOp) (s : State), startedOp s n (5 + pan) 4 = some (p, o) →
    let d := o.desc
    let page := pageOf n pan (Dsc.pPage d % 32)
    let x := s.pan (4 * n + pan)
    pan < 4 → Dsc.pInd d = false → Dsc.poff d + Dsc.pLen d ≤ 4096 → (s.part p).st = .released →
    (∃ rest, errsIn s.mem.panErr (page * pageBytes + 32 * Dsc.poff d) (32 * Dsc.pLen d) = (i, 2) :: rest) →
    (Pte.state (s.pte page) = Pte.live ∨ Pte.state (s.pte page) = Pte.sealed_) → Sp.get 0 x.spare (i / 4 % 8) < 8 →
    Does (.panrd n pan) s (fun t => t.mem.ss = s.mem.ss ∧ t.mem.pan = s.mem.pan ∧ { o with dead := true } ∈ (t.cell n).ops
      ∧ (t.part p).st = .stopped ∧ (t.part p).dl = 0 ∧ (t.part p).step = (s.part p).step ∧ (∀ q, q ≠ p → t.part q = s.part q)
      ∧ bit (t.pte page) 10 = true ∧ (∀ j, j ≠ 10 → bit (t.pte page) j = bit (s.pte page) j) ∧ (∀ r, r ≠ page → t.pte r = s.pte r)
      ∧ (t.pan (4 * n + pan)).ue = min (x.ue + 1) 0xFFFFFFFF ∧ bit (t.pan (4 * n + pan)).stat 1 = true
      ∧ Sp.get 0 t.faults.totals 1 = min 65535 (Sp.get 0 s.faults.totals 1 + 1))

/-- An operation of which R147 refuses the first page access, of whichever of its units, reads and writes nothing: it stays in its queue without progress, keeps its token,
the partition stops, and PAGE_ACCESS carries the reason, the row, the cell, the Pan and the opcode. -/
def Sys2Proof.Claims.RefusedAccessStops : Prop :=
  ∀ (n u p id r : Nat) (rest : List Nat) (o : CellOp) (s : State),
    s.cellOwner n = some p → (s.part p).st = .released → Sp.get [] (s.cell n).queues u = id :: rest →
    (s.cell n).op id = some o → o.dead = false → mayStart s (s.part p) n u o = true →
    (Dsc.opc o.desc = 1 → engineIdle (s.cell n) u = true → u ∈ (s.cell n).grants) →
    ∀ g gs, (Dsc.units o.desc).flatMap (fun v => pageUses s (s.part p) n v o.desc) = g :: gs → pageReason s p g.cell g.pan g.page g.bind g.write = some r →
    Does (.operationStart n u) s (fun t => t.mem = s.mem ∧ { o with dead := true } ∈ (t.cell n).ops
      ∧ (t.cell n).queues = (s.cell n).queues ∧ (t.cell n).tokens = (s.cell n).tokens ∧ (∀ m, m ≠ n → t.cell m = s.cell m)
      ∧ (t.part p).st = .stopped ∧ (t.part p).dl = 0 ∧ (t.part p).trk = (s.part p).trk ∧ (t.part p).step = (s.part p).step
      ∧ (∀ q, q ≠ p → t.part q = s.part q)
      ∧ Raised s t 4 r 3 ((s.part p).stopAction 4 (locPan g.page 0) 1) p (locPan g.page 0)
          (n + 2 ^ 10 * g.pan + 2 ^ 12 * Dsc.opc o.desc))


-- Stream ports, links, video, the cold tier and the Dome.

namespace Sys2Proof.Claims
open Machine

/-- Stream port `port` takes a frame: link security admits it and leaves the port as `x`, it is addressed to the port and its checks pass,
and its datagram `d` belongs to entry `e` of index `i` (R319 to R321, R324). -/
def Received (s : State) (port : Nat) (frame : Bytes) (d : Datagram) (i : Nat) (e : StreamEntry) (x : StreamPort) : Prop :=
  port ≤ 1 ∧ (∃ r, (s.sport port).receive frame = some (r, x) ∧ Eth.datagram (Eth.src frame) r = some d)
    ∧ Eth.dst frame = s.portMac port ∧ (∀ v, d.vlan = some v → v = (s.portAddr port).vid) ∧ s.ownAddr port d.dstIp = true
    ∧ s.entryOf port d = some (i, e)

/-- Why a stream port does not take a frame: link security, its form and checks, its MAC address, VLAN or IP address, or no entry (R319 to
R321, R324). -/
def NotReceived (s : State) (port : Nat) (frame : Bytes) : Prop :=
  (s.sport port).receive frame = none ∨ ∃ r x, (s.sport port).receive frame = some (r, x)
    ∧ (Eth.datagram (Eth.src frame) r = none ∨ ∃ d, Eth.datagram (Eth.src frame) r = some d
      ∧ (Eth.dst frame ≠ s.portMac port ∨ (∃ v, d.vlan = some v ∧ v ≠ (s.portAddr port).vid) ∨ s.ownAddr port d.dstIp = false
        ∨ s.entryOf port d = none))

/-- No error stands in a range of the cold tier. -/
def ColdClean (s : State) (a n : Nat) : Prop := ∀ e, e ∈ s.mem.ddrErr → ¬(a / 32 ≤ e.1 ∧ e.1 < (a + n + 31) / 32)

/-- Outside the picture storage of a context the memories read as before, and nothing else but the video pairs differs. -/
def OnlyPictures (s t : State) (c : VidCtx) : Prop :=
  (∀ a, (a < coldAddr (Vid.picBase c.params) ∨ coldAddr (Vid.picBase c.params + Vid.picPages c.params) ≤ a) →
      Memory.byte t.mem.cold a = Memory.byte s.mem.cold a)
    ∧ t.mem.pan = s.mem.pan ∧ t.mem.ss = s.mem.ss ∧ t.mem.dome = s.mem.dome ∧ { t with vpairs := s.vpairs, mem := s.mem } = s

end Sys2Proof.Claims

/-- A frame that fails link security, its form, its checks, its addresses or its VLAN, or that matches no entry, is counted and discarded,
by the row of SENSOR, RTP or REFLEX alike, but for a request of address resolution for an own address. That is answered through the
secure channel of its port; any other request is discarded, and counted on a stream port. -/
def Sys2Proof.Claims.StreamPortsDiscardAndAnswer : Prop :=
  (∀ (port : Nat) (frame : Bytes) (s : State), port ≤ 1 → NotReceived s port frame →
    ∀ c, c = Instr.streamFrameDiscard port frame ∨ c = Instr.sensorDatagram port frame ∨ c = Instr.rtpDatagram port frame
        ∨ c = Instr.reflexDatagram port frame →
      (s.asked port frame = none → Does c s (fun t => (t.sport port).rxDrop = sat32 ((s.sport port).rxDrop + 1)
        ∧ (∀ q, q ≠ port → t.sport q = s.sport q) ∧ { t with sports := s.sports } = s))
      ∧ (∀ q, s.asked port frame = some q → Leaves c s))
  ∧ ∀ (port dst : Nat) (rest : Bytes) (s : State), port < 3 →
      let frame := be 6 dst ++ rest
      (∀ vlan target asker x, s.asked port frame = some ((vlan, target, asker), x) →
        (x.macsec = false → Does (.addressResolution port dst rest) s (fun t => t.wire = s.wire ++ [.neighbour port target asker vlan none]
          ∧ t.sport port = x ∧ (∀ q, q ≠ port → t.sport q = s.sport q) ∧ { t with wire := s.wire, sports := s.sports } = s))
        ∧ (∀ sa, x.macsec = true → Sp.get none x.txSa x.txAn = some sa → sa.pn < 0xFFFFFFF0 →
            Does (.addressResolution port dst rest) s (fun t =>
              t.wire = s.wire ++ [.neighbour port target asker vlan (some (x.txAn, sa.pn))]
              ∧ Sp.get none (t.sport port).txSa x.txAn = some { sa with pn := sa.pn + 1 }
              ∧ (∀ q, q ≠ port → t.sport q = s.sport q) ∧ { t with wire := s.wire, sports := s.sports } = s))
        ∧ (∀ sa, x.macsec = true → Sp.get none x.txSa x.txAn = some sa → 0xFFFFFFF0 ≤ sa.pn →
            Does (.addressResolution port dst rest) s (fun t => t.wire = s.wire ∧ t.sport port = x
              ∧ (∀ q, q ≠ port → t.sport q = s.sport q) ∧ { t with sports := s.sports } = s)))
      ∧ (s.asked port frame = none → port ≤ 1 → Does (.addressResolution port dst rest) s (fun t =>
          (t.sport port).rxDrop = sat32 ((s.sport port).rxDrop + 1) ∧ (∀ q, q ≠ port → t.sport q = s.sport q)
          ∧ { t with sports := s.sports } = s))
      ∧ (s.asked 2 frame = none → Leaves (.addressResolution 2 dst rest) s)

/-- A SENSOR frame at or above the channel's next expected number is written to the log ring, and the numbers skipped are counted in
SEQ_GAP; one below it is dropped. A REFLEX frame enters its queue of four while the partition is RELEASED, and is otherwise discarded,
counted and flagged. Either is matched by an entry of its port, whose silence deadline is armed again. -/
def Sys2Proof.Claims.SensorAndReflexFramesQueue : Prop :=
  ∀ (port : Nat) (frame : Bytes) (d : Datagram) (i : Nat) (e : StreamEntry) (x : StreamPort) (s : State),
    Received s port frame d i e x → s.bru.depth ≠ 2 →
    let f := e.part + 1
    let ch := (s.fn f).in_ e.chan
    let seq := Fr.seq d.payload
    let q := Sp.get [] s.reflexq e.chan
    (e.kind = 2 → streamFrameOk e d.payload 0 = true → ch.configured = true → ch.expected ≤ seq → ch.fits d.payload = true →
      Does (.sensorDatagram port frame) s (fun t => (t.fn f).in_ e.chan = { ch with writing := ch.writing ++ [(seq, d.payload, 2 + i)] }
        ∧ t.sport port = { x with seqGap := sat32 (x.seqGap + (seq - ch.expected)) } ∧ t.stream i = some (e.heard s.now)
        ∧ (∀ g, g ≠ f → t.fn g = s.fn g) ∧ (∀ g, g ≠ port → t.sport g = s.sport g)
        ∧ { t with fns := s.fns, sports := s.sports, streams := s.streams } = s))
    ∧ (e.kind = 2 → streamFrameOk e d.payload 0 = true → ch.configured = true → seq < ch.expected →
        Does (.sensorDatagram port frame) s (fun t => t.fns = s.fns ∧ t.sport port = x
          ∧ { t with sports := s.sports, streams := s.streams } = s))
    ∧ (e.kind = 3 → streamFrameOk e d.payload 8 = true → (s.part e.part).st = .released → q.length < 4 →
        Does (.reflexDatagram port frame) s (fun t => Sp.get [] t.reflexq e.chan = q ++ [{
            port := port, ethSrc := d.ethSrc, vlan := d.vlan, srcIp := d.srcIp, dstIp := d.dstIp, srcPort := d.srcPort, tick := s.now
            seq := seq, payload := Fr.payload d.payload }]
          ∧ t.stream i = some { e.heard s.now with reflexDl := (e.heard s.now).reflexDl ++ [s.now + 100] } ∧ t.sport port = x
          ∧ { t with reflexq := s.reflexq, sports := s.sports, streams := s.streams } = s))
    ∧ (e.kind = 3 → streamFrameOk e d.payload 8 = true → ((s.part e.part).st ≠ .released ∨ 4 ≤ q.length) →
        Does (.reflexDatagram port frame) s (fun t => t.reflexq = s.reflexq
          ∧ t.sport port = { x with reflexDrop := sat32 (x.reflexDrop + 1), stat := setBit x.stat 2 }
          ∧ { t with sports := s.sports, streams := s.streams } = s))

/-- An RTP packet in order that holds one H.264 NAL unit hands it to the decode context and the next number advances; one already in
the window is dropped. A stream deadline that has passed raises DEADLINE_MISS once; one that has not changes nothing. -/
def Sys2Proof.Claims.RtpPacketsAndStreamDeadlines : Prop :=
  (∀ (port : Nat) (frame : Bytes) (d : Datagram) (i : Nat) (e : StreamEntry) (x : StreamPort) (k j : Nat) (v : VidCtx) (s : State),
    Received s port frame d i e x → e.kind = 1 → s.findVctx e.part e.vctx = some (k, j, v) → v.isDecode = true → v.closeCmd = none →
    12 ≤ d.payload.length → Rtp.version d.payload = 2 → (e.payloadType = 255 ∨ e.payloadType = Rtp.payloadType d.payload) →
    (e.ssrcField = 0 ∨ e.ssrcField = Rtp.ssrc d.payload) → (e.ssrc = none ∨ e.ssrc = some (Rtp.ssrc d.payload)) →
    let n := Rtp.seq d.payload
    (e.window = [] → (e.rtpNext = none ∨ e.rtpNext = some n) → Vid.codec v.params = 1 → Rtp.marker d.payload = false →
      Rtp.payload d.payload ≠ [] → 1 ≤ u8 (Rtp.payload d.payload) 0 % 32 → u8 (Rtp.payload d.payload) 0 % 32 ≤ 23 →
      Does (.rtpDatagram port frame) s (fun t => t.vctx k j = some { v with input := v.input ++ [.nal (Rtp.payload d.payload)] }
        ∧ (∃ y, t.stream i = some y ∧ y.rtpNext = some ((n + 1) % 65536) ∧ y.ssrc = some (Rtp.ssrc d.payload) ∧ y.window = [])
        ∧ (∀ a b, ¬(a = k ∧ b = j) → t.vctx a b = s.vctx a b)
        ∧ { t with sports := s.sports, streams := s.streams, vpairs := s.vpairs } = s))
    ∧ ((∃ b, (n, b) ∈ e.window) → Does (.rtpDatagram port frame) s (fun t =>
        (t.sport port).rxDrop = sat32 (x.rxDrop + 1) ∧ { t with sports := s.sports, streams := s.streams } = s)))
  ∧ ∀ (i n : Nat) (e : StreamEntry) (s : State), i ≤ 31 → s.stream i = some e →
      (e.silence = some n → (s.now ≤ n → Leaves (.streamDeadlineExpiry i .silence) s)
        ∧ (n < s.now → Does (.streamDeadlineExpiry i .silence) s (fun t => t.stream i = some { e with silence := none }
            ∧ Raised s t 3 3 6 0 e.part i (sat32 (s.now - n)) ∧ (t.part e.part).miss = sat32 ((s.part e.part).miss + 1)
            ∧ bit (t.part e.part).ptmStat 2 = true ∧ ∀ q, q ≠ e.part → t.part q = s.part q)))
      ∧ (e.reflexDl = [n] → (s.now ≤ n → Leaves (.streamDeadlineExpiry i .reflex) s)
        ∧ (n < s.now → Does (.streamDeadlineExpiry i .reflex) s (fun t => t.stream i = some { e with reflexDl := [] }
            ∧ Raised s t 3 6 6 0 e.part i (sat32 (s.now - n)) ∧ (t.part e.part).miss = sat32 ((s.part e.part).miss + 1))))
      ∧ (∀ ts, e.lat = [(ts, n)] → (s.now ≤ n → Leaves (.streamDeadlineExpiry i .picture) s)
        ∧ (n < s.now → Does (.streamDeadlineExpiry i .picture) s (fun t => t.stream i = some { e with lat := [] }
            ∧ Raised s t 3 5 6 0 e.part i (sat32 (s.now - n)))))

/-- LLDPDUs go out every second on an Ethernet link that is up, and the partner's is recorded for its TTL; an identity that changes or
expires raises LINK_IDENTITY. Before training, remap words carry the retired lane. A link that trains comes up at the width that
its lanes allow; a loss raises LINK_DOWN, and the fourth loss of lock in a second retires the lane. -/
def Obligations.LinksTrainRemapAndIdentify : Prop :=
  ∀ (port : Nat) (s : State),
    let x := s.link port
    (2 ≤ port → port ≤ 4 → x.up = true → s.board.removed = false → (x.lldpAt = none ∨ ∃ n, x.lldpAt = some n ∧ n + 100000000 ≤ s.now) →
      Does (.lldpTransmit port) s (fun t => t.wire = s.wire ++ [.lldp port 4 s.watch.serial s.clk.slotId port]
        ∧ t.link port = { x with lldpAt := some s.now } ∧ { t with wire := s.wire, links := s.links } = s))
    ∧ (x.up = false → Leaves (.lldpTransmit port) s)
    ∧ (∀ ttl far, 2 ≤ port → port ≤ 4 → 1 ≤ ttl →
        ((x.far = none ∨ x.far = some far) → Does (.lldpReceive port ttl far) s (fun t =>
          t.link port = { x with far := some far, farValid := true, farExpiry := s.now + 100000000 * ttl }
          ∧ (∀ q, q ≠ port → t.link q = s.link q) ∧ { t with links := s.links } = s))
        ∧ (∀ old, x.far = some old → farRecord old ≠ farRecord far → Does (.lldpReceive port ttl far) s (fun t =>
            (t.link port).far = some far ∧ Raised s t 13 0 5 0 255 port (farNumber far)
            ∧ (port ≤ 3 → bit (t.sport (port - 2)).stat 4 = true))))
    ∧ (∀ far, 2 ≤ port → port ≤ 4 → x.farValid = true → x.farExpiry ≤ s.now →
        Does (.lldpExpiry port) s (fun t => (t.link port).farValid = false ∧ ∃ v, Raised s t 13 0 5 0 255 port v)
        ∧ Does (.lldpReceive port 0 far) s (fun t => (t.link port).farValid = false ∧ ∃ v, Raised s t 13 0 5 0 255 port v))
    ∧ (s.now < x.farExpiry → Leaves (.lldpExpiry port) s)
    ∧ (∀ w, port ≤ 5 → x.up = false → x.retired.length ≤ 1 → Does (.remapWord port w) s (fun t =>
        let r := match x.retired with
          | [] => 0xFF
          | l :: _ => l + (if port = 2 ∨ port = 3 then 128 else 0)
        t.wire = s.wire ++ [.remap port (bytes [0xE7, port, r] ++ le 1 (Crypto.crc8 (bytes [0xE7, port, r])))]
        ∧ t.link port = { x with partner := w.bind readRemap } ∧ { t with wire := s.wire, links := s.links } = s))
    ∧ (∀ w, port ≤ 5 → x.up = false → x.retiredSet = [] → fullWidth port ≤ w → s.bru.ended.contains 2 = true →
        Does (.linkTrained port w) s (fun t => (t.link port).up = true ∧ (t.link port).width = fullWidth port ∧ (t.link port).remap = false
          ∧ (∀ q, q ≠ port → t.link q = s.link q) ∧ t.faults = s.faults))
    ∧ (∀ w, port ≤ 1 → x.up = false → x.retiredSet = [] → 4 ≤ w → w < 8 → s.bru.ended.contains 2 = true →
        Does (.linkTrained port w) s (fun t => (t.link port).up = true ∧ (t.link port).width = 4 ∧ Raised s t 12 2 5 6 255 port 4))
    ∧ (port ≤ 5 → x.up = true → Does (.linkDown port) s (fun t => (t.link port).up = false ∧ (t.link port).width = 0
        ∧ (t.link port).retired = x.retired ∧ Raised s t 12 1 5 0 255 port 0 ∧ ∀ q, q ≠ port → t.link q = s.link q))
    ∧ (x.up = false → Leaves (.linkDown port) s)
    ∧ (∀ lane, port ≤ 5 → lane ≤ fullWidth port → x.retired.contains lane = false →
        let recent := (Sp.get [] x.losses lane).filter (fun n => decide (s.now < n + 100000000))
        (recent.length < 3 → Does (.laneLockLoss port lane) s (fun t => Sp.get [] (t.link port).losses lane = recent ++ [s.now]
          ∧ { t.link port with losses := x.losses } = x ∧ { t with links := s.links } = s))
        ∧ (recent.length = 3 → Does (.laneLockLoss port lane) s (fun t => (t.link port).retired = x.retired ++ [lane]
            ∧ (t.link port).up = false ∧ Raised s t 12 4 5 6 255 (port + 8 * lane) 0)))

/-- The pixel engine of a pair takes the next access unit of the context that its rotation serves: a picture that fits enters the decoded
picture buffer, and what it outputs waits for the shaper with its flags; one outside the context's parameters starts a discard. With no
context to serve it waits. A picture that waits takes the lowest free buffer set, or is dropped and counted; a picture that is written is
recorded in the ready ring, noticed to the host and interrupts the Dome; a set with no use left is released. -/
def Sys2Proof.Claims.DecodedPicturesReachTheHost : Prop :=
  ∀ (k j : Nat) (c : VidCtx) (s : State), s.vctx k j = some c →
    (s.nextServed k = none → Leaves (.pictureDecode k) s)
    ∧ (∀ take u, s.nextServed k = some j → c.isDecode = true → c.discarding = false → c.discarded = 0 → c.closeCmd = none →
        c.nextUnit = some (take, u) →
        (VidCheck.fits c.params u.seq = false → Does (.pictureDecode k) s (fun t =>
          t.vctx k j = some { c with
            input := c.input.drop take.length, seen := c.seen ++ take, auNum := c.auNum + 1, discarding := true, discarded := 1 }
          ∧ (t.vpair k).last = j ∧ (∀ i, i ≠ j → t.vctx k i = s.vctx k i) ∧ (∀ q, q ≠ k → t.vpair q = s.vpair q)
          ∧ { t with vpairs := s.vpairs } = s))
        ∧ (VidCheck.fits c.params u.seq = true → Does (.pictureDecode k) s (fun t => ∃ d q, t.vctx k j = some d
            ∧ d.seen = c.seen ++ take ∧ d.input = c.input.drop take.length ∧ d.auNum = c.auNum + 1
            ∧ q.au = c.auNum ∧ q.flags = Dec.flags u c.dpb c.src ∧ q.width = u.seq.width ∧ q.height = u.seq.height
            ∧ (Dec.flagged q = true → d.src = c.src) ∧ (Dec.flagged q = false → d.src = some q)
            ∧ d.dpb.length ≤ Vid.dpbn c.params + 1 ∧ (∀ e, e ∈ d.dpb → (e = q ∨ e ∈ c.dpb) ∧ e.au ∈ u.keep)
            ∧ (u.outputs = [] → d.out = c.out ∧ d.nextPic = c.nextPic)
            ∧ (u.outputs = [c.auNum] → (∀ e, e ∈ c.dpb → e.au ≠ c.auNum) → d.nextPic = c.nextPic + 1
                ∧ d.out = c.out ++ [{ Dec.crop q with num := c.nextPic, flags := q.flags + 32 * b2n (c.gap || u.lost) }])
            ∧ (t.vpair k).decPix = sat32 ((s.vpair k).decPix + u.seq.width * u.seq.height) ∧ (t.vpair k).last = j
            ∧ (∀ i, i ≠ j → t.vctx k i = s.vctx k i) ∧ (∀ n, n ≠ k → t.vpair n = s.vpair n) ∧ OnlyPictures s t c)))
    ∧ (∀ q rest, c.out = q :: rest → c.shaping = none → c.closeCmd = none →
        match s.freeSet c with
        | none => Does (.shapePicture k j) s (fun t => (t.vpair k).ovr = sat32 ((s.vpair k).ovr + 1) ∧ bit (t.vpair k).stat 2 = true
            ∧ t.vctx k j = some { c with out := rest, overrun := true, shaped := c.shaped ++ [(q.num, none)] }
            ∧ { t with vpairs := s.vpairs } = s)
        | some n => Does (.shapePicture k j) s (fun t => (∃ d, t.vctx k j = some d ∧ d.out = rest ∧ d.used = c.used ++ [n]
            ∧ d.shaping = some (n, { q with flags := q.flags + 64 * b2n c.overrun }) ∧ d.overrun = false)
            ∧ t.mem.pan = s.mem.pan ∧ t.mem.ss = s.mem.ss ∧ t.mem.dome = s.mem.dome ∧ t.parts = s.parts ∧ t.fns = s.fns))
    ∧ (∀ n q, c.shaping = some (n, q) → c.closeCmd = none → Does (.pictureReady k j) s (fun t =>
        let record := bytes [c.vctx, q.flags, n, 0] ++ le 4 q.num ++ le 8 s.now ++ le 4 q.ts ++ le 2 (Vid.ntile c.params) ++ zeros 10
        (∃ d, t.vctx k j = some d ∧ d.shaping = none ∧ d.shaped = c.shaped ++ [(q.num, some n)] ∧ d.ring = c.ring + 1 ∧ d.used = c.used)
        ∧ Sent t (c.part + 1) 0x0B (Vid.chan c.params) 0 record ∧ (102 + 8 * k + j ∈ t.dome.pend ∨ 102 + 8 * k + j ∈ t.dome.refire)
        ∧ (∀ i, i < record.length → Memory.byte t.mem.dome (Config.readyRing k j c.ring % 2 ^ 21 * 32 + i) = record.getD i 0)
        ∧ t.mem.pan = s.mem.pan ∧ t.mem.ss = s.mem.ss ∧ t.mem.cold = s.mem.cold ∧ t.parts = s.parts))
    ∧ (∀ n, c.isDecode = true → (∀ e, e ∈ c.shaped → e.2 ≠ some n) → (∀ q, c.shaping ≠ some (n, q)) → (s.part c.part).decision = none →
        Does (.bufferSetRelease k j n) s (fun t => t.vctx k j = some { c with used := c.used.filter (· ≠ n) }
          ∧ { t with vpairs := s.vpairs } = s))

/-- The job of an encode context that the rotation serves is coded: its slices wait, the first picture is an IDR picture, and the buffer
model takes the picture's bits and its filler and gives the drain. Each slice leaves as a VSLICE frame; with the last one the input buffer is free. -/
def Sys2Proof.Claims.EncodedSlicesLeave : Prop :=
  ∀ (k j : Nat) (c : VidCtx) (s : State), s.vctx k j = some c →
    (∀ job rest, s.nextServed k = some j → c.jobs = job :: rest →
      ColdClean s (coldAddr (Vid.setBase c.params job.set)) (Vid.wa c.params * Vid.ha c.params * 3 * Vid.sampleBytes c.params / 2) →
      Does (.encodePicture k j) s (fun t => ∃ (d : VidCtx) (w : CodeJob) (q : Nat), t.vctx k j = some d
        ∧ w.params = c.params ∧ (c.coded = 0 → w.idr = true) ∧ (job.key = true → w.idr = true)
        ∧ (Vid.keyInt c.params = 0 → c.coded ≠ 0 → job.key = false → w.idr = false)
        ∧ w.picture = Vid.rawPicture c.params (s.coldRead (s.tenant (s.part c.part).tenant).key (coldAddr (Vid.setBase c.params job.set))
            (Vid.wa c.params * Vid.ha c.params * 3 * Vid.sampleBytes c.params / 2))
        ∧ d.full = c.full + (Rc.codePicture w q).bits + 8 * Rc.filler c.params c.full (Rc.codePicture w q).bits - Rc.drain c.params
        ∧ (c.coded = 0 → Vid.rcMode c.params ≠ 0 → q = Vid.qpI c.params)
        ∧ d.coded = c.coded + 1 ∧ d.slices.length = Rc.slices c.params - 1 + 1 ∧ d.jobs = c.jobs
        ∧ d.sinceIdr = (if w.idr = true then 1 else c.sinceIdr + 1) ∧ (∀ e, e ∈ d.slices → e.1.testBit 8 = w.idr)
        ∧ (t.vpair k).last = j ∧ (t.vpair k).encPix = sat32 ((s.vpair k).encPix + Vid.maxw c.params * Vid.maxh c.params)
        ∧ (∀ i, i ≠ j → t.vctx k i = s.vctx k i) ∧ (∀ n, n ≠ k → t.vpair n = s.vpair n) ∧ OnlyPictures s t c))
    ∧ (s.nextServed k ≠ some j → Leaves (.encodePicture k j) s)
    ∧ (∀ fl b rest, c.slices = (fl, b) :: rest → c.closeCmd = none → Does (.sliceCoded k j) s (fun t => ∃ d, t.vctx k j = some d
        ∧ d.slices = rest ∧ (rest ≠ [] → d.jobs = c.jobs ∧ d.used = c.used) ∧ (rest = [] → d.jobs = c.jobs.drop 1)
        ∧ (∀ job r, rest = [] → c.jobs = job :: r → ∀ n, n ∈ d.used ↔ n ∈ c.used ∧ n ≠ job.set)
        ∧ Sent t (c.part + 1) 0x0A (Vid.chan c.params) 0 b ∧ ((t.fn (c.part + 1)).out (Vid.chan c.params)).next
            = (((s.fn (c.part + 1)).out (Vid.chan c.params)).next + 1) % 2 ^ 64
        ∧ (∀ g, g ≠ c.part + 1 → t.fn g = s.fn g) ∧ { t with vpairs := s.vpairs, fns := s.fns } = s))

/-- A failed device is copied to the spare, a second one exposes the channel; a completed copy puts the spare in use. The patrol counts
what it corrects and reports what it cannot: an error in one device is corrected, one in two is not. The oldest write of a channel is
acknowledged, self-refresh follows the sleep of the owner's partitions and lets queued writes complete first, and DDR_OWN is not written while an owner holds keys. -/
def Obligations.ColdTierSparingAndUpkeep : Prop :=
  ∀ (n : Nat) (s : State), n < 8 →
    let d := s.dchan n
    (∀ cell op rest, d.writes = (cell, op) :: rest → Does (.ddrWriteAck n) s (fun t => (t.dchan n).writes = rest
      ∧ (∀ m, m ≠ n → t.dchan m = s.dchan m) ∧ SameBytes s t
      ∧ (∀ p o, s.cellOwner cell = some p → (s.cell cell).op op = some o → (t.part p).quiet = 0)))
    ∧ (∀ dev, dev < 18 → d.oos = false → d.failed ≠ dev → d.copyDev ≠ some dev → d.sp = .normal → Does (.deviceFailed n dev) s (fun t =>
        t.dchan n = { d with sp := .copying, copyDev := some dev } ∧ Raised s t 11 1 4 5 255 (n + 2 ^ 21 * dev) 1
        ∧ ∀ m, m ≠ n → t.dchan m = s.dchan m))
    ∧ (∀ dev, dev ≤ 18 → d.oos = false → d.failed ≠ dev → d.copyDev ≠ some dev → (d.sp = .copying ∨ d.sp = .spared) →
        Does (.deviceFailed n dev) s (fun t => t.dchan n = { d with sp := .exposed, exposedDev := some dev, stat := setBit d.stat 2 }
          ∧ Raised s t 11 3 4 6 255 (n + 2 ^ 21 * dev) 3))
    ∧ (∀ dev, d.copyDev = some dev → d.sp = .copying → Does (.spareCopyComplete n) s (fun t =>
        t.dchan n = { d with sp := .spared, failed := dev, copyDev := none } ∧ Raised s t 11 2 4 5 255 (n + 2 ^ 21 * dev) 2))
    ∧ (∀ page cw, page < 2 ^ 18 → cw < 4096 → d.oos = false → d.selfRef = false → d.trained = true →
        Sp.get 0 s.mem.ddrErr (coldAddr (2 ^ 18 * n + page) / 32 + cw) = 0 →
        Does (.ddrPatrolRead n page cw []) s (fun t => t.dchan n = { d with run := (31, 0) } ∧ { t with ddr := s.ddr } = s)
        ∧ (∀ dev, dev < 18 → d.failed ≠ dev → d.copyDev ≠ some dev → (d.sp ≠ .exposed ∨ d.exposedDev = some dev) →
            Does (.ddrPatrolRead n page cw [dev]) s (fun t => (t.dchan n).ce = sat32 (d.ce + 1) ∧ bit (t.dchan n).stat 0 = true
              ∧ SameBytes s t ∧ t.parts = s.parts ∧ ∀ m, m ≠ n → t.dchan m = s.dchan m))
        ∧ (∀ v w, v < w → w < 18 → d.failed ≠ v → d.failed ≠ w → d.copyDev = none →
            Does (.ddrPatrolRead n page cw [v, w]) s (fun t => (t.dchan n).ue = sat32 (d.ue + 1) ∧ bit (t.dchan n).stat 1 = true
              ∧ Raised s t 1 3 4 0 255 (n + 8 * page + 2 ^ 21 * v) 0 ∧ SameBytes s t)))
    ∧ (d.trained = true → d.selfRef = false → d.oos = false → (d.zq = none ∨ ∃ m, d.zq = some m ∧ m + 12800000 ≤ s.now) →
        Does (.zqCalibration n) s (fun t => t.dchan n = { d with zq := some s.now } ∧ { t with ddr := s.ddr } = s))
    ∧ (d.selfRef = true → Leaves (.zqCalibration n) s)
    ∧ (s.bru.depth ≠ 2 → d.writes = [] → (∀ f e, e ∈ (s.fn f).inch → e.2.writing = []) →
        Does (.selfRefreshChange n) s (fun t => { t.dchan n with selfRef := d.selfRef } = d
        ∧ ((t.dchan n).selfRef = true ↔ (∃ o, d.owner = some o ∧ s.tenantAsleep o = true) ∧ ¬∃ m, d.woke = some m ∧ s.now < m + 100000)
        ∧ (∀ m, m ≠ n → t.dchan m = s.dchan m) ∧ { t with ddr := s.ddr } = s))
    ∧ (s.bru.depth ≠ 2 → Does (.selfRefreshChange n) s (fun t =>
        d.selfRef = false → (t.dchan n).selfRef = true → (t.dchan n).writes = []))
    ∧ (∀ v : Word, (∀ o, d.owner = some o → s.holdsKeys o = false) → (∀ o, d.prev = some o → s.holdsKeys o = false) →
        Does (.ddrOwnWrite n v) s (fun t => t.dchan n = { d with owner := (if bit v 3 then some (fld v 0 3) else none), prev := none }
          ∧ { t with ddr := s.ddr } = s))
    ∧ (∀ (v : Word) o, d.owner = some o → s.holdsKeys o = true → Leaves (.ddrOwnWrite n v) s)

/-- An aligned access of a core through an aperture reads or writes the 8 bytes, and waits while its row is being copied; one that is
refused returns 0, changes no byte and is recorded in DOME_ACC. -/
def Obligations.DomeAperturesReachMemory : Prop :=
  ∀ (core off : Nat) (s : State), core ≤ 7 →
    let pg := off / 131072
    let w (store : Option DWord) : Word := word (core + 8 * b2n store.isSome + 16)
    (off < 2 ^ 34 → off % 8 = 0 → ∀ v : DWord, s.panRefused pg true = false → s.rowBusy off 8 = false →
      Does (.panApertureAccess core (0x200000000 + off) (some v)) s (fun t =>
        (∀ a, Memory.byte t.mem.pan a = if off ≤ a ∧ a < off + 8 then (le 8 v.toNat).getD (a - off) 0 else Memory.byte s.mem.pan a)
        ∧ t.mem.ss = s.mem.ss ∧ t.mem.cold = s.mem.cold ∧ t.mem.dome = s.mem.dome ∧ t.rdata = s.rdata))
    ∧ (off < 2 ^ 34 → off % 8 = 0 → s.panRefused pg false = false → s.rowBusy off 8 = false →
        errsIn s.mem.panErr off 8 = [] →
        Does (.panApertureAccess core (0x200000000 + off) none) s (fun t =>
          t.rdata = leNat ((List.range 8).map (fun i => Memory.byte s.mem.pan (off + i))) ∧ { t with rdata := s.rdata } = s))
    ∧ (∀ store : Option DWord, off < 2 ^ 34 → off % 8 = 0 → s.panRefused pg store.isSome = false → s.rowBusy off 8 = true →
        Leaves (.panApertureAccess core (0x200000000 + off) store) s)
    ∧ (∀ store : Option DWord, off < 2 ^ 34 → (off % 8 ≠ 0 ∨ s.panRefused pg store.isSome = true) →
        Does (.panApertureAccess core (0x200000000 + off) store) s (fun t => (store = none → t.rdata = 0)
          ∧ t.dome = { s.dome with accAddr := 0x200000000 + off, accStat := w store }
          ∧ { t with rdata := s.rdata, dome := s.dome } = s))
    ∧ (∀ store : Option DWord, off < 2 ^ 38 → (s.apertureKey pg = none ∨ off % 8 ≠ 0) →
        Does (.coldApertureAccess core (0x1000000000 + off) store) s (fun t => (store = none → t.rdata = 0)
          ∧ t.dome = { s.dome with accAddr := 0x1000000000 + off, accStat := w store }
          ∧ { t with rdata := s.rdata, dome := s.dome } = s))
    ∧ (∀ (v : DWord) key, off < 2 ^ 38 → off % 8 = 0 → s.apertureKey pg = some key → ColdClean s (off / 64 * 64) 64 →
        Does (.coldApertureAccess core (0x1000000000 + off) (some v)) s (fun t =>
          (t.dchan (coldChan pg)).selfRef = false ∧ (t.dchan (coldChan pg)).woke = some s.now
          ∧ t.coldRead (some key) off 8 = le 8 v.toNat ∧ t.mem.pan = s.mem.pan ∧ t.mem.ss = s.mem.ss ∧ t.mem.dome = s.mem.dome
          ∧ t.rdata = s.rdata ∧ t.parts = s.parts))
    ∧ (∀ key, off < 2 ^ 38 → off % 8 = 0 → s.apertureKey pg = some key → ColdClean s off 8 →
        Does (.coldApertureAccess core (0x1000000000 + off) none) s (fun t => t.rdata = leNat (s.coldRead (some key) off 8)
          ∧ t.mem = s.mem ∧ (t.dchan (coldChan pg)).selfRef = false))

/-- A read of DIC_CLAIM by a core that holds no claim takes the lowest source that is pending, enabled, targeted at the core and not
claimed: the read returns it, claims it and clears its pending state. With none it returns 0, claims nothing and counts DIC_SPUR. A core
that holds a claim reads that number, and nothing changes. -/
def Obligations.InterruptClaim : Prop :=
  ∀ (core : Nat) (s : State), core ≤ 7 → (s.core core).st ≠ .failed →
    let qualifies (src : Nat) : Prop := src ∈ s.dome.enable ∧ (Sp.get 0 s.dome.target src).testBit core = true
      ∧ s.dicPending src = true ∧ ∀ k, k ≤ 7 → (s.core k).claim ≠ some src
    (∀ src, (s.core core).claim = none → 1 ≤ src → src ≤ 255 → qualifies src → (∀ m, 1 ≤ m → m < src → ¬ qualifies m) →
      Does (.dicClaim core) s (fun t => t.rdata = src ∧ (t.core core).claim = some src ∧ t.dicPending src = false
        ∧ (∀ m, m ≠ src → t.dicPending m = s.dicPending m) ∧ (∀ q, q ≠ core → t.core q = s.core q)
        ∧ { t with rdata := s.rdata, dome := s.dome } = s))
    ∧ ((s.core core).claim = none → (∀ m, 1 ≤ m → m ≤ 255 → ¬ qualifies m) →
        Does (.dicClaim core) s (fun t => t.rdata = 0 ∧ t.dome = { s.dome with spur := min (s.dome.spur + 1) 0xFFFFFFFF }
          ∧ { t with rdata := s.rdata, dome := s.dome } = s))
    ∧ (∀ src, (s.core core).claim = some src →
        Does (.dicClaim core) s (fun t => t.rdata = src ∧ { t with rdata := s.rdata } = s))

/-- A write of DIC_COMPLETE that names the source the core holds ends the claim: a level source is then pending again as long as its
condition holds, and an edge source when its event occurred while it was claimed, once however often. Any other value is discarded and
sets COMP_IGN. -/
def Obligations.InterruptCompletion : Prop :=
  ∀ (core : Nat) (v : Word) (s : State), core ≤ 7 →
    (∀ src, (s.core core).claim = some src → fld v 0 8 = src → (∀ k, k ≤ 7 → k ≠ core → (s.core k).claim ≠ some src) →
      Does (.dicComplete core v) s (fun t => t.core core = { s.core core with claim := none }
        ∧ (dicIsLevel src = true → t.dicPending src = s.dicLevel src)
        ∧ (dicIsLevel src = false → (t.dicPending src = true ↔ src ∈ s.dome.refire ∨ src ∈ s.dome.pend) ∧ src ∉ t.dome.refire)
        ∧ (∀ m, m ≠ src → t.dicPending m = s.dicPending m) ∧ (∀ q, q ≠ core → t.core q = s.core q)
        ∧ { t with dome := s.dome } = s))
    ∧ ((s.core core).claim ≠ some (fld v 0 8) → Does (.dicComplete core v) s (fun t =>
        t.core core = { s.core core with compIgn := true } ∧ (∀ q, q ≠ core → t.core q = s.core q) ∧ { t with dome := s.dome } = s))

/-- DIC_SOFT takes SOFT of the core from bit 0, and a 1 in bit 1 takes DONE_P3 of every partition. The timer of a core is a level source:
its expiry changes nothing, and the source is pending while DIC_TIMER is not 0 and the tick has reached it. -/
def Sys2Proof.Claims.SoftInterruptsAndTimers : Prop :=
  ∀ (core : Nat) (s : State), core ≤ 7 →
    (∀ v : Word, Does (.dicSoftWrite core v) s (fun t => (t.core core).soft = bit v 0
      ∧ (bit v 1 = true → ∀ p, p < 16 → (t.part p).pw.doneP3 = false) ∧ (bit v 1 = false → t.parts = s.parts)))
    ∧ Leaves (.dicTimerExpiry core) s
    ∧ (s.dicLevel (146 + core) = true ↔ (s.core core).timer ≠ 0 ∧ (s.core core).timer ≤ s.now)

/-- A spare core starts at DOME_BOOT; a kick restarts a core's watchdog. A core that DOME_FAIL names, whose watchdog runs 10 ms, or
whose cache fails goes out of service with its CAUSE and a record; an uncorrectable error in Dome memory makes a compute reset. -/
def Sys2Proof.Claims.DomeCoresStartAndFail : Prop :=
  ∀ (core : Nat) (s : State), core ≤ 7 →
    (∀ v : Word, fld v 0 3 = core → bit v 3 = true →
      ((s.core core).st = .spare → Does (.domeStart v) s (fun t =>
        t.core core = { s.core core with st := .run, entry := s.dome.boot, kick := s.now } ∧ (∀ q, q ≠ core → t.core q = s.core q)
        ∧ { t with dome := s.dome } = s))
      ∧ ((s.core core).st ≠ .spare → Does (.domeStart v) s (fun t => t.dome = { s.dome with startIgn := true }
          ∧ { t with dome := s.dome } = s)))
    ∧ Does (.domeKick core) s (fun t => t.core core = { s.core core with kick := s.now } ∧ (∀ q, q ≠ core → t.core q = s.core q)
        ∧ { t with dome := s.dome } = s)
    ∧ ((s.core core).st = .run → s.now < (s.core core).kick + 1000000 → Leaves (.domeWatchdogExpiry core) s)
    ∧ ((s.core core).st = .run → ∀ c cause,
        ((c = Instr.domeWatchdogExpiry core ∧ cause = 2 ∧ (s.core core).kick + 1000000 ≤ s.now) ∨ (c = Instr.domeCacheUe core ∧ cause = 2)
          ∨ ∃ v : Word, c = Instr.domeFail v ∧ fld v 0 3 = core ∧ bit v 3 = true ∧ cause = 3) →
        Does c s (fun t => (t.core core).st = .failed ∧ (t.core core).cause = cause ∧ (t.core core).claim = none
          ∧ (∀ q, q ≠ core → t.core q = s.core q) ∧ (2 ∈ t.dome.pend ∨ 2 ∈ t.dome.refire)
          ∧ (Sp.get 0 t.faults.totals 22 = min 65535 (Sp.get 0 s.faults.totals 22 + 1)
            ∨ Sp.get 0 t.faults.totals 22 = min 65535 (Sp.get 0 s.faults.totals 22 + 2))))
    ∧ (s.mayReset 2 = true → s.fw.forfort = false → Does .domeMemoryUe s (fun t => t.clk.source = 4 ∧ t.clk.kind = 3 ∧ t.bru.depth = 2
        ∧ t.bru.isReady = false ∧ t.mem.dome = [] ∧ t.tenants = s.tenants))
    ∧ (s.mayReset 2 = false → Does .domeMemoryUe s (fun t => Raised s t 1 4 0 4 255 0 0 ∧ t.mem = s.mem ∧ t.parts = s.parts))


-- Power, clocks, resets and bring-up.

/-- A cap in range is applied at once, raised to the floor where it lies below it, and clamps the blocks where it lies more than 50 W
below the input; one out of range only sets CAP_IGN. Policies and tolerances are written or refused, and the power states of a
partition move by IDLE, OFF, the hold and the end of the P3 exit; P1 is point 0, and point 6 in the reflex partition (log 154). -/
def Sys2Proof.Claims.CapsPoliciesAndPowerStates : Prop :=
  ∀ (p : Nat) (v : Word) (s : State), p < 16 →
    let c := fld v 0 8
    let x := s.part p
    let w := x.pw
    ((c < 30 ∨ 140 < c) → Does (.pwrCapSetWrite v) s (fun t => t.power = { s.power with stat := setBit s.power.stat 2 }
      ∧ { t with power := s.power } = s))
    ∧ (30 ≤ c → c ≤ 140 → s.floorTens ≤ c → s.power.meanIn ≤ c * 100 + 500 → Does (.pwrCapSetWrite v) s (fun t =>
        t.power = { s.power with capSet := c, capNow := c, floorNow := s.floorTens } ∧ { t with power := s.power } = s))
    ∧ (30 ≤ c → c ≤ 140 → c < s.floorTens → s.power.meanIn ≤ s.floorTens * 100 + 500 → Does (.pwrCapSetWrite v) s (fun t =>
        t.power = { s.power with capSet := c, capNow := s.floorTens, floorNow := s.floorTens, stat := setBit s.power.stat 3 }
        ∧ Raised s t 17 0 0 0 255 0 s.floorTens ∧ t.parts = s.parts))
    ∧ (30 ≤ c → c ≤ 140 → s.floorTens ≤ c → c * 100 + 500 < s.power.meanIn → Does (.pwrCapSetWrite v) s (fun t =>
        t.power.capNow = c ∧ t.power.clampAt = some s.now ∧ bit t.power.stat 0 = true ∧ t.power.clamps = sat32 (s.power.clamps + 1)
        ∧ (x.present = true → x.reflex = false → (t.part p).pw.point = 0 ∧ bit (t.part p).pw.ev 20 = true)
        ∧ (x.present = true → x.reflex = true → (t.part p).pw = w)))
    ∧ (let (ff, fc, pf, pc) := (fld v 0 4, fld v 4 4, fld v 8 9, fld v 17 9)
       match s.policyRefusal p ff fc pf pc with
       | some _ => Does (.pwrPolWrite p v) s (fun t => t.part p = { x with pw := { w with ev := setBit w.ev 22 } } ∧ OnlyPart s t p)
       | none => Does (.pwrPolWrite p v) s (fun t =>
           t.part p = { x with pw := { w with ffloor := ff, fceil := fc, pfloor := pf, pceil := pc } } ∧ OnlyPart s t p))
    ∧ ((w.st = .p0 ∨ w.st = .p3 ∨ (w.st = .p2 ∧ 20 ≤ v.toNat) ∨ (w.st = .p1 ∧ 1 ≤ v.toNat)) → Does (.pwrTolWrite p v) s (fun t =>
        t.part p = { x with pw := { w with tol := v.toNat } } ∧ OnlyPart s t p))
    ∧ (w.st = .p1 → v.toNat = 0 → Does (.pwrTolWrite p v) s (fun t =>
        t.part p = { x with pw := { w with tol := 0, st := .p0, idleAt := none } } ∧ OnlyPart s t p))
    ∧ (bit v 0 = true → bit v 1 = false → w.idle = false → w.st = .p0 →
        (1 ≤ w.tol → Does (.idleWrite p v) s (fun t => (t.part p).pw = {
            w with idle := true, st := .p1, point := (if x.reflex = true then 6 else 0), idleAt := some s.now }
          ∧ { t with parts := s.parts, blocks := s.blocks } = s))
        ∧ (w.tol = 0 → Does (.idleWrite p v) s (fun t => t.part p = { x with pw := { w with idle := true } } ∧ OnlyPart s t p)))
    ∧ (bit v 0 = true → bit v 1 = true → w.idle = true →
        (w.st = .p2 → max 90000 w.exit3 ≤ w.tol → Does (.offWrite p v) s (fun t => (t.part p).pw.st = .p3
          ∧ (∀ k, k < 16 → x.hasBlock k = true → (t.block k).on = false) ∧ (x.bc1 ≤ 3 → ∀ k, x.hasBlock k = false → t.block k = s.block k)
          ∧ (∀ q, q ≠ p → t.part q = s.part q)))
        ∧ (w.st ≠ .p2 ∨ w.tol < max 90000 w.exit3 → Does (.offWrite p v) s (fun t =>
            t.part p = { x with pw := { w with ev := setBit w.ev 21 } } ∧ OnlyPart s t p)))
    ∧ (∀ n, w.idleAt = some n → w.st = .p1 → w.idle = true → 20 ≤ w.tol →
        (n + 10000 ≤ s.now → Does (.idleHoldExpiry p) s (fun t => t.part p = { x with pw := { w with st := .p2 } } ∧ OnlyPart s t p))
        ∧ (s.now < n + 10000 → Leaves (.idleHoldExpiry p) s))
    ∧ (w.st = .p3 → w.waking = true → Does (.p3ExitDone p) s (fun t =>
        t.part p = { x with pw := { w with st := .p0, waking := false, doneP3 := true } } ∧ OnlyPart s t p))
    ∧ (∀ n, w.conflictAt = some n → x.present = true → w.conflictRaised = false →
        (n + 100000 ≤ s.now → Does (.policyConflict p) s (fun t => Raised s t 17 0 1 0 p 0 s.power.capNow
          ∧ (t.part p).pw = { w with ev := setBit w.ev 17, conflictRaised := true }))
        ∧ (s.now < n + 100000 → Leaves (.policyConflict p) s))

/-- Every interval a partition's energy grows by its calibrated estimate and its point rises by no more than STEPS, but for the reflex
partition up to point 6; a sample joins the
energy and the means of its millisecond; the gain moves a quarter of the way, within its limits; after a clamp the partitions climb
one point at a time. -/
def Sys2Proof.Claims.PowerIntervalsSamplesAndClimb : Prop :=
  (∀ (est queues : List Nat) (s : State), (s.power.lastInt = none ∨ ∃ n, s.power.lastInt = some n ∧ n + 100 ≤ s.now) →
    s.floorTens ≤ s.power.capNow → s.power.floorNow = s.floorTens → Does (.powerInterval est queues) s (fun t =>
      t.power.interval = s.power.interval + 1 ∧ t.power.lastInt = some s.now ∧ t.mem = s.mem ∧ t.faults = s.faults ∧ t.fns = s.fns
      ∧ (∀ p, p < 16 → (s.part p).present = true → (t.part p).pw.energy = (s.part p).pw.energy + est.getD p 0 * s.power.gain
          ∧ (t.part p).pw.learned.length ≤ 64 ∧ ((s.part p).pw.st ≠ .p0 → (t.part p).pw.point = (s.part p).pw.point)
          ∧ (t.part p).pw.point ≤ max (if (s.part p).reflex = true then 6 else 0) ((s.part p).pw.point + (s.part p).pw.phase.steps)
          ∧ { t.part p with pw := (s.part p).pw } = s.part p)
      ∧ (∀ p, (s.part p).present = false → t.part p = s.part p)
      ∧ ∀ q, q < 12 → Sp.get 0 t.power.queues q = Sp.get 0 s.power.queues q + queues.getD q 0 * s.power.gain))
  ∧ (∀ (est queues : List Nat) (n : Nat) (s : State), s.power.lastInt = some n → s.now < n + 100 → Leaves (.powerInterval est queues) s)
  ∧ (∀ (m e : Nat) (s : State), (s.power.lastGain = none ∨ ∃ n, s.power.lastGain = some n ∧ n + 100000 ≤ s.now) → 1 ≤ e →
      Does (.gainUpdate m e) s (fun t => t.power.lastGain = some s.now ∧ { t.power with lastGain := s.power.lastGain, gain := s.power.gain } = s.power
        ∧ (4 * m ≤ 3 * e → (3 * s.power.gain + 12288) % 4 = 0 → t.power.gain = (3 * s.power.gain + 12288) / 4)
        ∧ (5 * e ≤ 4 * m → (3 * s.power.gain + 20480) % 4 = 0 → t.power.gain = (3 * s.power.gain + 20480) / 4)
        ∧ (m = e → (3 * s.power.gain + 16384) % 4 = 0 → t.power.gain = (3 * s.power.gain + 16384) / 4)
        ∧ { t with power := s.power, freeCtr := s.freeCtr } = s))
  ∧ (∀ (v a : Nat) (s : State), (s.power.lastSample = none ∨ ∃ n, s.power.lastSample = some n ∧ n + 100 ≤ s.now) →
      Does (.powerSample v a) s (fun t => t.power.energy = s.power.energy + v * a ∧ { t with power := s.power } = s
        ∧ (s.power.nIn + 1 < 1000 → t.power.nIn = s.power.nIn + 1 ∧ t.power.accIn = s.power.accIn + v * a ∧ t.power.meanIn = s.power.meanIn)
        ∧ (s.power.nIn = 999 → t.power.nIn = 0 ∧ t.power.accIn = 0 ∧ t.power.accVolts = 0
            ∧ ((s.power.accIn + v * a) % 10000000 = 0 → t.power.meanIn = sat16 ((s.power.accIn + v * a) / 10000000))
            ∧ ((s.power.accVolts + v) % 1000 = 0 → t.power.volts = sat16 ((s.power.accVolts + v) / 1000)))))
  ∧ (∀ (n : Nat) (s : State), s.power.clampAt = some n → (s.now < n + 10500 → Leaves .clampHoldEnd s)
      ∧ (n + 10500 ≤ s.now → Does .clampHoldEnd s (fun t => t.power = { s.power with clampAt := none, climbAt := some s.now }
          ∧ (∀ p, p < 16 → (t.part p).pw.point ≤ (s.part p).pw.point + 1 ∧ ((s.part p).reflex = true → t.part p = s.part p))
          ∧ { t with power := s.power, parts := s.parts, blocks := s.blocks } = s)))
  ∧ ∀ (n : Nat) (s : State), s.power.climbAt = some n → (s.now < n + 5000 → Leaves .clampClimb s)
      ∧ (n + 5000 ≤ s.now → Does .clampClimb s (fun t => (t.power.climbAt = none ∨ t.power.climbAt = some s.now)
          ∧ (∀ p, p < 16 → (t.part p).pw.point ≤ (s.part p).pw.point + 1 ∧ ((s.part p).reflex = true → t.part p = s.part p))
          ∧ { t with power := s.power, parts := s.parts, blocks := s.blocks } = s))

/-- A droop stretches the beats of its block, counts and flags; the stretch's end applies a latched point; one of 4 µs ends at point 0
with DROOP_LONG. Heat lowers the limit of a block a point at a time, puts it to point 0 at 110 °C, and removes power at 120 °C; a hot
coolant is reported. -/
def Obligations.DroopHeatAndCoolant : Prop :=
  ∀ (b : Nat) (s : State), b < 16 →
    let k := s.block b
    (k.on = true → k.stretch = none → Does (.droopDetect b) s (fun t => t.block b = { k with stretch := some s.now }
      ∧ (∀ p, s.owner b = some p → (t.part p).pw = { (s.part p).pw with
          ev := setBit (s.part p).pw.ev 19, droops := sat32 ((s.part p).pw.droops + 1) })
      ∧ (s.owner b = none → t.parts = s.parts) ∧ (∀ q, q ≠ b → t.block q = s.block q)
      ∧ { t with blocks := s.blocks, parts := s.parts } = s))
    ∧ (k.stretch ≠ none → Does (.stretchEnd b) s (fun t =>
        t.block b = { k with stretch := none, latched := none, point := min (k.latched.getD k.point) k.limit }
        ∧ (∀ q, q ≠ b → t.block q = s.block q) ∧ { t with blocks := s.blocks } = s))
    ∧ (∀ n, k.stretch = some n → (s.now < n + 400 → Leaves (.droopLong b true) s ∧ Leaves (.droopLong b false) s)
        ∧ (n + 400 ≤ s.now → Does (.droopLong b false) s (fun t => t.block b = { k with stretch := none, latched := none, point := 0 }
            ∧ Raised s t 18 0 0 7 ((s.owner b).getD 255) 0 b ∧ (∀ p, s.owner b = some p → (t.part p).pw.limit = 5)
            ∧ (∀ q, q ≠ b → t.block q = s.block q))))
    ∧ (∀ temp, 1000 ≤ temp → (k.thermAt = none ∨ ∃ n, k.thermAt = some n ∧ n + 10000 ≤ s.now) → Does (.thermalLimitStep b temp) s (fun t =>
        (t.block b).tlimit = (if k.tlimit ≤ (if s.reflexBlock b then 6 else 0) then k.tlimit else k.tlimit - 1)
        ∧ (t.block b).temp = temp ∧ (t.block b).point ≤ k.point ∧ (k.hot = false → (t.block b).point ≤ (t.block b).tlimit)
        ∧ (∀ p, s.owner b = some p → bit (t.part p).pw.ev 18 = true) ∧ (∀ q, q ≠ b → t.block q = s.block q)))
    ∧ (∀ temp, temp < 950 → (k.thermAt = none ∨ ∃ n, k.thermAt = some n ∧ n + 100000 ≤ s.now) → Does (.thermalLimitStep b temp) s (fun t =>
        t.block b = { k with temp := temp, tlimit := min 15 (k.tlimit + 1), hot := false, thermAt := some s.now }
        ∧ { t with blocks := s.blocks } = s))
    ∧ (∀ temp, 1100 ≤ temp → k.hot = false → Does (.thermal b temp) s (fun t => (t.block b).point = 0 ∧ (t.block b).hot = true
        ∧ (t.block b).tlimit = 0 ∧ Raised s t 19 0 0 7 ((s.owner b).getD 255) 0 (b + 16 * (temp % 4096))
        ∧ (∀ q, q ≠ b → t.block q = s.block q) ∧ t.parts = s.parts))
    ∧ (∀ temp, 1200 ≤ temp → s.board.tripped = false → s.board.p4 = false → s.board.st = .on → Does (.thermalTrip b temp) s (fun t =>
        t.board = { s.board with tripped := true } ∧ t.bru.halted = true ∧ t.bru.isReady = false ∧ t.mem = {} ∧ t.tenants = [] ∧ t.parts = []
        ∧ Raised s t 20 0 0 9 255 0 (b + 16 * (temp % 4096))
        ∧ (s.faults.windows = [] → ∃ r, r ∈ t.faults.persist ∧ r.cls = 20 ∧ r.num = s.faults.num % 2 ^ 32)))
    ∧ (∀ inlet outlet, Does (.coolant inlet outlet) s (fun t => t.power.coolIn = sat16 inlet ∧ t.power.coolOut = sat16 outlet
        ∧ (450 ≤ inlet → bit t.power.stat 4 = true ∧ Raised s t 21 0 0 0 255 0 inlet)
        ∧ (inlet < 450 → t.power.stat = s.power.stat ∧ { t with power := s.power } = s)))

/-- The tick starts at the end of the oscillator wait, moves to the IRO when REFCLK is lost and back when it returns; the trim locks
to its source and holds when that is lost; the frequency counter measures when its selections are clocks. -/
def Obligations.ClocksTrimAndMeasure : Prop :=
  ∀ s : State,
    let c := s.clk
    (∀ r, s.bru.depth = 5 → 1 ∉ s.bru.ended → s.bru.halted = false → s.board.st = .on → s.board.p4 = false → s.board.resetLow = false →
      s.board.removed = false → Does (.oscWaitEnd r) s (fun t => t.clk.running = true ∧ t.clk.refOk = r ∧ t.clk.onIro = !r
        ∧ t.clk.stat = (if r then c.stat else setBit c.stat 3) ∧ 1 ∈ t.bru.ended ∧ t.bru.trigger = s.now
        ∧ { t with clk := s.clk, bru := s.bru } = s))
    ∧ (c.running = true → c.onIro = false → c.trimSrc ≠ 0 → Does .refclkLost s (fun t =>
        t.clk = { c with refOk := false, onIro := true, stat := setBit c.stat 3 } ∧ Raised s t 16 0 0 0 255 0 0))
    ∧ (c.running = true → c.onIro = false → c.trimSrc = 0 → c.refOk = true → Does .refclkLost s (fun t =>
        t.clk.onIro = true ∧ t.clk.trimLock = false ∧ t.clk.trim = c.trim ∧ bit t.clk.stat 3 = true ∧ bit t.clk.stat 5 = true
        ∧ Raised s t 16 0 0 0 255 0 0))
    ∧ (c.running = true → c.onIro = true → Does .refclkReturn s (fun t => t.clk = { c with onIro := false, refOk := true, stat := setBit c.stat 4 }
        ∧ { t with clk := s.clk } = s))
    ∧ (c.running = true → c.trimSrc ≠ 3 → Does .trimLost s (fun t => t.clk = { c with trimLock := false, stat := setBit c.stat 5 }
        ∧ { t with clk := s.clk } = s))
    ∧ (∀ n, c.running = true → s.trimSource = true → Does (.trimLock n) s (fun t => t.clk = { c with trimLock := true, trim := n % 65536 }
        ∧ { t with clk := s.clk } = s))
    ∧ (∀ n, s.trimSource = false → Leaves (.trimLock n) s)
    ∧ (∀ v : Word, Does (.clkCtlWrite v) s (fun t => t.clk.trimSrc = fld v 0 2 ∧ { t.clk with trimSrc := c.trimSrc, trimLock := c.trimLock } = c
        ∧ (fld v 0 2 = c.trimSrc → t.clk.trimLock = c.trimLock) ∧ (fld v 0 2 ≠ c.trimSrc → t.clk.trimLock = false)
        ∧ { t with clk := s.clk } = s))
    ∧ (∀ v : Word, bit v 0 = true → bit c.fmcStat 0 = false →
        (fld c.fmcSel 0 6 < 20 → fld c.fmcSel 6 6 < 20 → Does (.start v) s (fun t => t.clk = { c with fmcStat := 1 } ∧ { t with clk := s.clk } = s))
        ∧ ((20 ≤ fld c.fmcSel 0 6 ∨ 20 ≤ fld c.fmcSel 6 6) → Does (.start v) s (fun t => t.clk = { c with fmcStat := setBit c.fmcStat 4 }
            ∧ { t with clk := s.clk } = s)))
    ∧ (∀ v : Word, (bit v 0 = false ∨ bit c.fmcStat 0 = true) → Leaves (.start v) s)
    ∧ (∀ n, bit c.fmcStat 0 = true → Does (.measurementDone (.count n)) s (fun t => t.clk.fmcCnt = min n 0xFFFFFFFF
        ∧ t.clk.fmcStat = (if n ≤ 0xFFFFFFFF then 2 else 6) ∧ { t with clk := s.clk } = s))
    ∧ (bit c.fmcStat 0 = true → Does (.measurementDone .noClock) s (fun t => t.clk.fmcStat = 10
        ∧ { t with clk := s.clk, freeCtr := s.freeCtr } = s))

/-- A cold reset keeps the persistent store and rebuilds everything else, a warm reset keeps the clock, the cold tier's bytes and its
training as well, and a compute reset keeps tenants, keys, partitions and, with no log write queued, the cold tier's bytes; the
partitions return to BOUNDARY, and frames that neither ring has are discarded; a deeper or equal reset in
progress absorbs the others. -/
def Sys2Proof.Claims.ResetsKeepWhatTheirDepthKeeps : Prop :=
  ∀ (n : Nat) (s : State),
    (∀ full, s.board.st = .on → s.board.p4 = false → s.board.resetLow = false → (s.bru.depth ≠ 5 ∨ 1 ∈ s.bru.ended) →
      Does (.coldReset n full) s (fun t => t.clk.kind = 1 ∧ t.clk.source = n ∧ t.clk.running = false ∧ t.clk.tick = 0
        ∧ t.clk.slotId = s.clk.pinSlot ∧ t.bru.depth = 5 ∧ t.bru.ended = [] ∧ t.bru.isReady = false ∧ t.mem = {} ∧ t.parts = [] ∧ t.tenants = []
        ∧ t.fns = [] ∧ t.hps = [] ∧ t.streams = [] ∧ t.faults.persist = s.faults.persist ∧ t.faults.hist = [] ∧ t.watch.serial = s.watch.serial
        ∧ t.watch.idSeed = s.watch.idSeed ∧ t.watch.oper = s.watch.oper ∧ t.watch.pins = s.watch.pins ∧ t.watch.licence = s.watch.licence
        ∧ t.watch.addrs = s.watch.addrs ∧ t.watch.keys = [] ∧ t.fw.fbCount = s.fw.fbCount ∧ t.fw.xfer = none ∧ t.wire = s.wire))
    ∧ (∀ full, s.bru.depth = 5 → 1 ∉ s.bru.ended → s.board.st = .on → s.board.p4 = false → s.board.removed = false → s.bru.halted = false →
        Leaves (.coldReset n full) s)
    ∧ (s.mayReset 4 = true → Does (.warmReset n) s (fun t => t.clk = { s.clk with kind := 2, source := n } ∧ t.bru.depth = 4
        ∧ t.bru.isReady = false ∧ t.bru.trigger = s.now ∧ t.parts = [] ∧ t.tenants = [] ∧ t.hps = [] ∧ t.streams = [] ∧ t.mem.pan = []
        ∧ t.mem.ss = [] ∧ t.mem.dome = [] ∧ t.mem.pte = [] ∧ t.mem.cold = s.mem.cold ∧ t.watch.keys = [] ∧ t.watch.modKey = none
        ∧ t.watch.nonce = s.watch.nonce ∧ t.watch.oper = s.watch.oper ∧ ((s.ddr.map (·.1)).Nodup → ∀ c, (t.dchan c).trained = (s.dchan c).trained)
        ∧ t.fw.running = s.fw.running ∧ t.fw.window = none))
    ∧ (s.mayReset 4 = false → Leaves (.warmReset n) s)
    ∧ (s.mayReset 2 = true → s.fw.forfort = false → Does (.computeReset n) s (fun t =>
        t.clk = { s.clk with kind := 3, source := n, ncomp := sat16 (s.clk.ncomp + 1) } ∧ t.bru.depth = 2 ∧ t.bru.isReady = false
        ∧ t.tenants = s.tenants ∧ t.watch.keys = s.watch.keys ∧ t.mem.pan = [] ∧ t.mem.ss = [] ∧ t.mem.dome = [] ∧ t.mem.pte = []
        ∧ ∀ c, c < 8 → (t.dchan c).selfRef = true ∧ (t.dchan c).writes = []))
    ∧ (s.mayReset 2 = true → s.fw.forfort = false → (∀ f e, e ∈ (s.fn f).inch → e.2.writing = []) → Does (.computeReset n) s (fun t =>
        t.mem.cold = s.mem.cold ∧ (∀ p, p < 16 → (t.part p).present = (s.part p).present) ∧ (∀ p, p < 16 → (s.part p).present = false → t.part p = s.part p)
        ∧ (∀ p, p < 16 → (s.part p).present = true → (t.part p).st = .boundary ∧ (t.part p).dl = 0 ∧ (t.part p).armed = false
            ∧ ((s.part p).st ≠ .complete → (t.part p).step = (s.part p).step)
            ∧ ((s.part p).st = .complete → (s.part p).commitRec = true → (t.part p).step = ((s.part p).step + 1) % 2 ^ 64))
        ∧ (∀ f, f ≤ 16 → (∀ g, g ∈ (s.fn f).egress → g.sent = []) → (s.fn f).half = [] →
            (t.fn f).egress = [] ∧ ((t.fn f).out 0).next = ((t.fn f).out 0).watermark)))
    ∧ (s.mayReset 2 = false → Leaves (.computeReset n) s)

/-- A phase of bring-up runs once the phases it comes after have ended, and does nothing before. The ROM phase checks the licence,
training takes channels into service, and the self-test starts six cores or fails. -/
def Sys2Proof.Claims.BringUpPhasesStart : Prop :=
  ∀ s : State,
    (s.phaseReady 2 [1] = true → Does .romPhase s (fun t => 2 ∈ t.bru.ended
      ∧ (t.watch.licValid = true ↔ ∃ b, s.watch.licence = some b ∧ Lic.refusal s.watch.licKey s.watch.serial b = none)
      ∧ { t.watch with licValid := s.watch.licValid, evNum := s.watch.evNum } = s.watch ∧ t.parts = s.parts))
    ∧ (s.phaseReady 2 [1] = false → Leaves .romPhase s)
    ∧ (∀ failed, s.phaseReady 4 [2] = true → Does (.ddrTraining failed) s (fun t => 4 ∈ t.bru.ended
        ∧ (∀ c, c < 8 → c ∉ failed → t.dchan c = { s.dchan c with trained := true })
        ∧ (∀ c, c < 8 → c ∈ failed → t.dchan c = { s.dchan c with oos := true }) ∧ t.mem = s.mem ∧ t.parts = s.parts))
    ∧ (∀ failed, s.phaseReady 4 [2] = false → Leaves (.ddrTraining failed) s)
    ∧ (s.phaseReady 5 [2] = false → Leaves .firmwareSelection s)
    ∧ (s.phaseReady 6 [5] = true → (∀ c, c < 8 → (s.core c).st ≠ .failed) → s.bru.kind ≠ 3 → Does (.domeSelfTest []) s (fun t =>
        6 ∈ t.bru.ended ∧ (∀ c, c < 6 → (t.core c).st = .run ∧ (t.core c).kick = s.now) ∧ (t.core 6).st = .spare ∧ (t.core 7).st = .spare
        ∧ (s.fw.window = none → t.fw.window = some (s.now + 6000000000)) ∧ t.dome.enable = [] ∧ t.bru.failed = s.bru.failed
        ∧ (∀ k, k < 16 → (t.block k).point = 6 ∧ (t.block k).on = !(s.block k).oos)))
    ∧ (∀ failed, s.phaseReady 6 [5] = true → (∀ c, c < 3 → c ∈ failed) → Does (.domeSelfTest failed) s (fun t =>
        t.bru.failed = true ∧ t.bru.depth = 0 ∧ t.bru.isReady = s.bru.isReady ∧ t.parts = s.parts))
    ∧ (∀ failed, s.phaseReady 6 [5] = false → Leaves (.domeSelfTest failed) s)

/-- Phase 5 chooses by the first row that applies: ROM_RCV, a TRIAL slot, FB_COUNT of 3, a CURRENT slot that verifies, a PREVIOUS slot
that verifies, none. A slot that runs is CURRENT, and Forfort ends bring-up at this phase. -/
def Obligations.FirmwareSelectionByTable : Prop :=
  ∀ s : State, s.phaseReady 5 [2] = true → s.fw.forfort = false →
    let good (i : Nat) : Prop := FwImage.signed s.watch.fwKey (s.fw.slot i).image = true
    let forfort (t : State) : Prop := t.fw.forfort = true ∧ t.bru = { s.bru with depth := 0 }
    let runs (t : State) (i : Nat) : Prop := t.fw.forfort = false ∧ 5 ∈ t.bru.ended ∧ t.bru.slot = i ∧ t.fw.running = i
      ∧ t.fw.slot i = { s.fw.slot i with st := .current } ∧ t.fw.version = (s.fw.slot i).version ∧ t.fw.setVer = (s.fw.slot i).setVer
    let previous (t : State) : Prop := match s.fw.slotIn .previous with
      | some o => (good o → runs t o) ∧ (¬ good o → forfort t)
      | none => forfort t
    (s.clk.romRcv = true → Does .firmwareSelection s forfort)
    ∧ (s.clk.romRcv = false →
      (∀ i, s.fw.slotIn .trial = some i → Does .firmwareSelection s (fun t => (t.fw.slot i).st = .failed
        ∧ (¬(s.fw.fbCount + 1 < 3 ∧ (s.fw.slot (1 - i)).st = .previous) →
            forfort t ∧ t.fw.fbCount = s.fw.fbCount + 1 ∧ Raised s t 23 2 0 8 255 0 (s.fw.fbCount + 1))
        ∧ (s.fw.fbCount + 1 < 3 → (s.fw.slot (1 - i)).st = .previous →
            (good (1 - i) → runs t (1 - i) ∧ t.fw.fbCount = s.fw.fbCount + 1 ∧ Raised s t 23 2 0 8 255 0 (s.fw.fbCount + 1))
            ∧ (¬ good (1 - i) → forfort t ∧ t.fw.fbCount = s.fw.fbCount + 2))))
      ∧ (s.fw.slotIn .trial = none → 3 ≤ s.fw.fbCount → Does .firmwareSelection s forfort)
      ∧ (∀ i, s.fw.slotIn .trial = none → s.fw.fbCount < 3 → s.fw.slotIn .current = some i →
        (good i → Does .firmwareSelection s (fun t => runs t i ∧ t.fw.fbCount = s.fw.fbCount))
        ∧ (¬ good i → Does .firmwareSelection s (fun t => (t.fw.slot i).st = .failed ∧ t.fw.fbCount = s.fw.fbCount + 1 ∧ previous t)))
      ∧ (s.fw.slotIn .trial = none → s.fw.fbCount < 3 → s.fw.slotIn .current = none → Does .firmwareSelection s previous))

/-- The microcode goes to every cell; the cell check sets the blocks outside partitions off; the DDR4 test ends bring-up with FAILED
where no channel is left; READY draws a new module key. -/
def Sys2Proof.Claims.BringUpReachesReady : Prop :=
  ∀ s : State,
    (s.phaseReady 7 [6] = true → Does (.microcodeBroadcast []) s (fun t => 7 ∈ t.bru.ended ∧ (∀ n, n < 1024 → t.cell n = { s.cell n with ucode := true })
      ∧ t.mem = s.mem ∧ t.parts = s.parts ∧ t.faults = s.faults))
    ∧ (∀ failed, s.phaseReady 7 [6] = false → Leaves (.microcodeBroadcast failed) s)
    ∧ (s.phaseReady 8 [7] = true → s.bru.kind ≠ 3 → Does (.cellCheck [] []) s (fun t => 8 ∈ t.bru.ended
        ∧ (∀ k, k < 16 → s.owner k = none → (t.block k).on = false ∧ (t.block k).point = 0)
        ∧ (∀ k p, k < 16 → s.owner k = some p → (t.block k).point = (s.part p).pw.point) ∧ t.mem = s.mem ∧ t.parts = s.parts ∧ t.faults = s.faults))
    ∧ (∀ failed rows, s.phaseReady 8 [7] = false → Leaves (.cellCheck failed rows) s)
    ∧ (s.phaseReady 9 [4, 6] = true → Does (.ddrTest []) s (fun t => 9 ∈ t.bru.ended ∧ (∀ c, c < 8 → t.dchan c = { s.dchan c with newFail := false })
        ∧ ((∀ c, c < 8 → (s.dchan c).oos = true) → t.bru.failed = true ∧ t.bru.depth = 0)
        ∧ ((∃ c, c < 8 ∧ (s.dchan c).oos = false) → t.bru.failed = s.bru.failed)))
    ∧ (∀ dev, s.phaseReady 9 [4, 6] = true → dev < 18 → (s.dchan 0).sp = .normal → (s.dchan 0).trained = true → (s.dchan 0).oos = false →
        Does (.ddrTest [(0, dev)]) s (fun t => (t.dchan 0).sp = .spared ∧ (t.dchan 0).failed = dev ∧ (t.dchan 0).newFail = true
          ∧ (∀ c, 1 ≤ c → c < 8 → (t.dchan c).sp = (s.dchan c).sp)))
    ∧ (∀ failed, s.phaseReady 9 [4, 6] = false → Leaves (.ddrTest failed) s)
    ∧ (s.phaseReady 10 [8, 9] = true → s.fw.activate = none → Does .ready s (fun t => 10 ∈ t.bru.ended ∧ t.bru.isReady = true ∧ t.bru.depth = 0
        ∧ (∃ k, t.watch = { s.watch with keys := s.watch.keys ++ [k], modKey := some k })
        ∧ (7 ∈ t.dome.pend ∨ 7 ∈ t.dome.refire) ∧ { t with bru := s.bru, watch := s.watch, dome := s.dome, freeCtr := s.freeCtr } = s))
    ∧ (s.phaseReady 10 [8, 9] = false → Leaves .ready s)


-- The management port and the board.

namespace Sys2Proof.Claims
open Machine

/-- The Watchtower takes command `c` with code `opc` next: it is the oldest held, its key's role is high enough and its length right. -/
def Manages (s : State) (opc role len : Nat) (c : Bytes × Nat) (rest : List (Bytes × Nat)) : Prop :=
  s.mgmtAlive = true ∧ s.watch.held = c :: rest ∧ Mg.opc c.1 = opc ∧ Mg.plen c.1 = len
    ∧ (s.noKeys = true ∨ ∃ k, s.oper (Mg.keyid c.1) = some k ∧ k.role ≤ role)

/-- The RESP frame of command `c`, with its RESULT and results, has gone out on port M. -/
def Replied (s t : State) (c : Bytes × Nat) (result : Nat) (body : Bytes) : Prop :=
  s.wire <+: t.wire ∧ Wire.mgmt c.2 (s.mgmtFrame 4 (Mg.opc c.1) (Mg.keyid c.1) result (Mg.ctr c.1) body) ∈ t.wire

/-- The RESP of command `c` has gone out, the command is no longer held, and nothing else has changed but the stored RESP. -/
def OnlyReplied (s t : State) (c : Bytes × Nat) (rest : List (Bytes × Nat)) (result : Nat) (body : Bytes) : Prop :=
  Replied s t c result body ∧ t.watch.held = rest ∧ { t.watch with held := s.watch.held, lastResp := s.watch.lastResp } = s.watch
    ∧ { t with watch := s.watch, wire := s.wire } = s

/-- The commands of the Watchtower: code, role asked for and payload length (R418, R421). -/
def mgmtRows : List (Nat × Instr × Nat × Nat) := [
  (0x02, .status, 3, 0), (0x03, .attestMod, 3, 32), (0x04, .faultRead, 3, 5), (0x10, .keyEnroll, 1, 34), (0x11, .keyRevoke, 1, 1),
  (0x12, .keyList, 3, 0), (0x20, .platekeySet, 1, 34), (0x21, .hostkeyPin, 1, 33), (0x40, .capSet, 2, 4), (0x41, .trimSet, 2, 4),
  (0x50, .portAddr, 2, 24), (0x51, .macsecSak, 1, 87), (0x52, .macsecCtl, 1, 7), (0x60, .streamAdd, 2, 48), (0x61, .streamRemove, 2, 1),
  (0x62, .streamList, 3, 1), (0x70, .reset, 1, 2), (0x71, .powerOff, 1, 0), (0x80, .eventDest, 2, 18)]

end Sys2Proof.Claims

/-- A management HELLO is answered and changes no state. A CMD frame that fails a check, or that is not above the slot's counter, is
discarded and counted; a retransmission of the last one is answered again; any other is held. -/
def Sys2Proof.Claims.ManagementFramesAreChecked : Prop :=
  ∀ (b : Bytes) (r : Nat) (s : State), s.mgmtAlive = true →
    let high := Sp.get 0 s.watch.ctr (Mg.keyid b)
    (u32 b 0 = 0x4554474D → Mg.ver b = 0 → Mg.mtype b = 1 → 2 ≤ Mg.plen b → Mg.plen b ≤ 1024 → b.length = 48 + Mg.plen b →
      Does (.mgmtHello b r) s (fun t => (∃ m, t.wire = s.wire ++ [.mgmt r m]
        ∧ u8 m 4 = (if u8 b 48 ≤ 1 ∧ 1 ≤ u8 b 49 then 1 else 0) ∧ u8 m 5 = 2) ∧ { t with wire := s.wire } = s))
    ∧ (u32 b 0 ≠ 0x4554474D → Leaves (.mgmtHello b r) s)
    ∧ (s.mgmtPasses b = false → Does (.mgmtCmdCheck b r) s (fun t =>
        t.watch = { s.watch with discards := sat32 (s.watch.discards + 1) } ∧ { t with watch := s.watch } = s))
    ∧ (s.mgmtPasses b = true → high < Mg.ctr b → s.watch.held.length < 8 → Does (.mgmtCmdCheck b r) s (fun t =>
        t.watch.held = s.watch.held ++ [(b, r)] ∧ Sp.get 0 t.watch.ctr (Mg.keyid b) = Mg.ctr b
        ∧ Sp.get none t.watch.lastCmd (Mg.keyid b) = some b ∧ (∀ k, k ≠ Mg.keyid b → Sp.get 0 t.watch.ctr k = Sp.get 0 s.watch.ctr k)
        ∧ { t with watch := s.watch } = s))
    ∧ (s.mgmtPasses b = true → (Mg.ctr b < high ∨ (high < Mg.ctr b ∧ 8 ≤ s.watch.held.length)) → Does (.mgmtCmdCheck b r) s (fun t =>
        t.watch = { s.watch with discards := sat32 (s.watch.discards + 1) } ∧ { t with watch := s.watch } = s))
    ∧ (∀ m, s.mgmtPasses b = true → Mg.ctr b = high → Sp.get none s.watch.lastCmd (Mg.keyid b) = some b →
        Sp.get none s.watch.lastResp (Mg.keyid b) = some m →
        Does (.mgmtCmdCheck b r) s (fun t => t.wire = s.wire ++ [.mgmt r m] ∧ { t with wire := s.wire } = s))

/-- A command of a key with too low a role is answered ROLE, and one of another length FIELD; neither changes anything. While no
command is held, or the Watchtower does not serve the port, nothing happens. -/
def Sys2Proof.Claims.ManagementRolesAndLengths : Prop :=
  ∀ e, e ∈ mgmtRows → ∀ s : State,
    (s.mgmtAlive = false → Leaves e.2.1 s) ∧ (s.watch.held = [] → Leaves e.2.1 s)
    ∧ ∀ (c : Bytes × Nat) (rest : List (Bytes × Nat)) (k : OperKey), s.mgmtAlive = true → s.watch.held = c :: rest → Mg.opc c.1 = e.1 →
        s.bru.isReady = true → s.oper (Mg.keyid c.1) = some k → s.noKeys = false →
        (e.2.2.1 < k.role → Does e.2.1 s (fun t => OnlyReplied s t c rest 0x0101 []))
        ∧ (k.role ≤ e.2.2.1 → Mg.plen c.1 ≠ e.2.2.2 → Does e.2.1 s (fun t => OnlyReplied s t c rest 0x0102 []))

/-- STATUS, ATTEST_MOD, FAULT_READ, KEY_LIST and STREAM_LIST answer with the state they show and change nothing. -/
def Sys2Proof.Claims.ManagementReads : Prop :=
  ∀ (c : Bytes × Nat) (rest : List (Bytes × Nat)) (s : State),
    let b := Mg.payload c.1
    (Manages s 0x02 3 0 c rest → Does .status s (fun t => ∃ m, OnlyReplied s t c rest 0 m ∧ m.length = 92
      ∧ slice m 28 8 = le 8 s.licId ∧ slice m 84 4 = le 4 s.pair.st.code ∧ slice m 88 4 = le 4 s.watch.discards))
    ∧ (Manages s 0x03 3 32 c rest → 80 ≤ c.1.length → Does .attestMod s (fun t => ∃ m, OnlyReplied s t c rest 0 (m ++ Crypto.edSign s.watch.idSeed m)
        ∧ m.take 48 = le 4 0x45545441 ++ le 2 0 ++ le 2 0 ++ bytes [0xFF, 0xFF] ++ le 2 s.clk.slotId ++ le 4 s.fw.version ++ b))
    ∧ (Manages s 0x04 3 5 c rest → u8 b 4 ≤ 1 → Does .faultRead s (fun t => ∃ (n : Nat) (recs : List FaultRec), recs.length ≤ 30
        ∧ OnlyReplied s t c rest 0 (le 4 n ++ le 1 recs.length ++ zeros 3
            ++ (List.range 24).flatMap (fun i => le 2 (Sp.get 0 s.faults.totals (i + 1))) ++ recs.flatMap FaultRec.bytes)
        ∧ ∀ r, r ∈ recs → u32 b 0 ≤ r.num ∧ r ∈ (if u8 b 4 = 0 then s.faults.hist else s.faults.persist)))
    ∧ (Manages s 0x12 3 0 c rest → Does .keyList s (fun t => ∃ m, OnlyReplied s t c rest 0 m ∧ m.length = 528
        ∧ ∀ i, i < 16 → slice m (33 * i) 33 = match s.oper i with
          | some k => le 1 k.role ++ fit 32 k.key
          | none => zeros 33))
    ∧ (Manages s 0x62 3 1 c rest → s.bru.isReady = true → u8 b 0 ≤ 31 → Does .streamList s (fun t => ∃ m, OnlyReplied s t c rest 0 m
        ∧ u8 m 0 = ((List.range 32).filter (fun i => (s.stream i).isSome)).length ∧ m.length = 4 + 52 * u8 m 1 ∧ u8 m 1 ≤ 16))

/-- Operator keys are enrolled and revoked while an ADMIN key remains; plate keys, host pins, licences, the cap, the trim source, port
addresses and the event destination are set, each refused where its fields or conditions fail. -/
def Sys2Proof.Claims.ManagementSettings : Prop :=
  ∀ (c : Bytes × Nat) (rest : List (Bytes × Nat)) (s : State),
    let b := Mg.payload c.1
    let i := u8 b 0
    (Manages s 0x10 1 34 c rest → i ≤ 15 → u8 b 1 = 1 → Does .keyEnroll s (fun t => Replied s t c 0 []
      ∧ t.oper i = some { role := 1, key := slice b 2 32 } ∧ (∀ j, j ≠ i → t.oper j = s.oper j)
      ∧ { t with watch := s.watch, wire := s.wire } = s))
    ∧ (Manages s 0x11 1 1 c rest → i ≤ 15 → (s.oper i).isSome = true →
        ((∃ e k, e ∈ s.watch.oper ∧ e.1 ≠ i ∧ e.2 = some k ∧ k.role = 1) → Does .keyRevoke s (fun t => Replied s t c 0 []
          ∧ t.oper i = none ∧ (∀ j, j ≠ i → t.oper j = s.oper j) ∧ { t with watch := s.watch, wire := s.wire } = s))
        ∧ ((∀ e k, e ∈ s.watch.oper → e.1 ≠ i → e.2 = some k → k.role ≠ 1) → Does .keyRevoke s (fun t => OnlyReplied s t c rest 1 [])))
    ∧ (Manages s 0x20 1 34 c rest → i ≤ 7 → u8 b 1 ≤ 3 → Does .platekeySet s (fun t => Replied s t c 0 []
        ∧ Sp.get none t.watch.plateKeys (4 * i + u8 b 1)
            = (if allZero (slice b 2 32) 0 (slice b 2 32).length then none else some (slice b 2 32))
        ∧ (∀ j, j ≠ 4 * i + u8 b 1 → Sp.get none t.watch.plateKeys j = Sp.get none s.watch.plateKeys j)
        ∧ { t with watch := s.watch, wire := s.wire } = s))
    ∧ (Manages s 0x21 1 33 c rest → i ≤ 16 →
        let key := if allZero (slice b 1 32) 0 (slice b 1 32).length then none else some (slice b 1 32)
        Does .hostkeyPin s (fun t => Replied s t c 0 [] ∧ Sp.get none t.watch.pins i = key
          ∧ (key ≠ Sp.get none s.watch.pins i → ∀ h, h < 2 → (t.hp h i).session = none) ∧ (key = Sp.get none s.watch.pins i → t.hps = s.hps)
          ∧ { t with watch := s.watch, wire := s.wire, hps := s.hps } = s))
    ∧ (Manages s 0x30 1 (Mg.plen c.1) c rest → Does .licenceInstall s (fun t =>
        match Lic.refusal s.watch.licKey s.watch.serial b with
        | some r => OnlyReplied s t c rest r []
        | none => s.watch.licValid = false → s.licInUse b = false →
            Replied s t c 0 [] ∧ t.watch.licence = some b ∧ t.watch.licValid = true))
    ∧ (∀ old, Manages s 0x30 1 (Mg.plen c.1) c rest → Lic.refusal s.watch.licKey s.watch.serial b = none → s.watch.licValid = true →
        s.watch.licence = some old → old ≠ b → Lic.id b ≤ Lic.id old → Does .licenceInstall s (fun t => OnlyReplied s t c rest 0x44 []))
    ∧ (Manages s 0x40 2 4 c rest → (u32 b 0 < 30 ∨ 140 < u32 b 0) → Does .capSet s (fun t => Replied s t c 0x0102 []
        ∧ t.power = { s.power with stat := setBit s.power.stat 2 } ∧ { t with watch := s.watch, wire := s.wire, power := s.power } = s))
    ∧ (Manages s 0x40 2 4 c rest → 30 ≤ u32 b 0 → u32 b 0 ≤ 140 → Does .capSet s (fun t => Replied s t c 0 [] ∧ t.power.capSet = u32 b 0
        ∧ t.power.capNow = max (u32 b 0) s.floorTens ∧ t.mem = s.mem))
    ∧ (Manages s 0x41 2 4 c rest → (3 < u32 b 0 → Does .trimSet s (fun t => OnlyReplied s t c rest 0x0102 []))
        ∧ (u32 b 0 ≤ 3 → Does .trimSet s (fun t => Replied s t c 0 [] ∧ t.clk.trimSrc = u32 b 0
            ∧ { t with watch := s.watch, wire := s.wire, clk := s.clk } = s)))
    ∧ (Manages s 0x50 2 24 c rest → i ≤ 2 → u16 b 1 ≤ 4095 → u8 b 23 ≤ 128 → Does .portAddr s (fun t => Replied s t c 0 []
        ∧ t.portAddr i = { vid := u16 b 1, ipv4 := beNat (slice b 3 4), ipv6 := beNat (slice b 7 16), prefixLen := u8 b 23 }
        ∧ (∀ j, j ≠ i → t.portAddr j = s.portAddr j) ∧ { t with watch := s.watch, wire := s.wire } = s))
    ∧ (Manages s 0x80 2 18 c rest → Does .eventDest s (fun t => Replied s t c 0 [] ∧ t.watch.evAddr = beNat (slice b 0 16)
        ∧ t.watch.evPort = u16 b 16 ∧ { t with watch := s.watch, wire := s.wire } = s))

/-- MACSEC_SAK installs an unwrapped SAK in an association, MACSEC_CTL enables MACsec where the association has one; STREAM_ADD takes
the lowest free index, STREAM_REMOVE frees one; RESET and POWER_OFF answer first and then take effect. -/
def Sys2Proof.Claims.ManagementStreamsAndResets : Prop :=
  ∀ (c : Bytes × Nat) (rest : List (Bytes × Nat)) (s : State),
    let b := Mg.payload c.1
    let i := u8 b 0
    (Manages s 0x51 1 87 c rest → i ≤ 1 → u8 b 1 ≤ 1 → u8 b 2 ≤ 3 →
      (s.unwrap c.1 7 32 = none → Does .macsecSak s (fun t => OnlyReplied s t c rest 0x0102 []))
      ∧ ∀ sak, s.unwrap c.1 7 32 = some sak → Does .macsecSak s (fun t => Replied s t c 0 []
          ∧ (u8 b 1 = 1 → Sp.get none (t.sport i).txSa (u8 b 2) = some { sak := sak, pn := u32 b 3 })
          ∧ (u8 b 1 = 0 → Sp.get none (t.sport i).rxSa (u8 b 2) = some { sak := sak, pn := u32 b 3 }
              ∧ Sp.get 0 (t.sport i).rxPn (u8 b 2) = u32 b 3 - 1 ∧ (t.sport i).txSa = (s.sport i).txSa)
          ∧ (∀ q, q ≠ i → t.sport q = s.sport q) ∧ { t with watch := s.watch, wire := s.wire, sports := s.sports } = s))
    ∧ (Manages s 0x52 1 7 c rest → i ≤ 1 → u8 b 1 ≤ 1 → u8 b 2 ≤ 3 →
        (Sp.get none (s.sport i).txSa (u8 b 2) = none → Does .macsecCtl s (fun t => OnlyReplied s t c rest 2 []))
        ∧ (Sp.get none (s.sport i).txSa (u8 b 2) ≠ none → Does .macsecCtl s (fun t => Replied s t c 0 []
            ∧ (t.sport i).macsec = (u8 b 1 == 1) ∧ (t.sport i).txAn = u8 b 2 ∧ (t.sport i).replayWin = u32 b 3
            ∧ (∀ q, q ≠ i → t.sport q = s.sport q) ∧ { t with watch := s.watch, wire := s.wire, sports := s.sports } = s)))
    ∧ (Manages s 0x60 2 48 c rest → s.bru.isReady = true →
        (∀ r, s.entryRefusal { raw := b } = some r → Does .streamAdd s (fun t => OnlyReplied s t c rest r []))
        ∧ ∀ n, s.entryRefusal { raw := b } = none → n < 32 → s.stream n = none → (∀ m, m < n → s.stream m ≠ none) →
          Does .streamAdd s (fun t => Replied s t c 0 (le 1 n)
            ∧ (∃ e, t.stream n = some e ∧ e.raw = b ∧ (e.periodUs ≠ 0 → e.silence = some (s.now + 100 * e.periodUs)))
            ∧ (∀ m, m ≠ n → t.stream m = s.stream m) ∧ { t with watch := s.watch, wire := s.wire, streams := s.streams } = s))
    ∧ (Manages s 0x61 2 1 c rest → s.bru.isReady = true → i ≤ 31 → (s.stream i).isSome = true → Does .streamRemove s (fun t =>
        Replied s t c 0 [] ∧ t.stream i = none ∧ (∀ m, m ≠ i → t.stream m = s.stream m)
        ∧ { t with watch := s.watch, wire := s.wire, streams := s.streams } = s))
    ∧ (Manages s 0x70 1 2 c rest → i = 1 → u8 b 1 ≤ 1 → Does .reset s (fun t => Replied s t c 0 [] ∧ t.clk.kind = 1 ∧ t.clk.source = 3
        ∧ t.bru.depth = 5 ∧ t.bru.full = (u8 b 1 == 1) ∧ t.parts = []))
    ∧ (Manages s 0x70 1 2 c rest → i = 2 → u8 b 1 = 0 → s.mayReset 4 = true → Does .reset s (fun t => Replied s t c 0 [] ∧ t.clk.kind = 2
        ∧ t.clk.source = 3 ∧ t.bru.depth = 4 ∧ t.parts = []))
    ∧ (Manages s 0x70 1 2 c rest → i = 3 → u8 b 1 = 0 → s.mayReset 2 = true → s.fw.forfort = false → Does .reset s (fun t =>
        Replied s t c 0 [] ∧ t.clk.kind = 3 ∧ t.clk.source = 3 ∧ t.bru.depth = 2 ∧ t.tenants = s.tenants))
    ∧ (Manages s 0x70 1 2 c rest → (i = 0 ∨ 3 < i ∨ (i ≠ 1 ∧ u8 b 1 ≠ 0)) → Does .reset s (fun t => OnlyReplied s t c rest 0x0102 []))
    ∧ (Manages s 0x71 1 0 c rest → Does .powerOff s (fun t => Replied s t c 0 [] ∧ t.board = { st := .off, p4 := true } ∧ t.mem = {}
        ∧ t.parts = [] ∧ t.tenants = [] ∧ t.watch.oper = s.watch.oper))

/-- A collection window that has run 1 ms ends, and the occurrences it collected go as one record. An open presence contact halts
issue and sends LOSS on port A and shutdown LLDPDUs, repeated every 10 µs on port A. The pins and the input move the supplies. -/
def Obligations.FaultWindowsRemovalAndSupplies : Prop :=
  ∀ s : State,
    (∀ key w, Sp.get none s.faults.windows key = some w →
      (s.now < w.opened + 100000 → Leaves (.faultWindowEnd key) s)
      ∧ (w.opened + 100000 ≤ s.now → w.extra = 0 → Does (.faultWindowEnd key) s (fun t => Sp.get none t.faults.windows key = none
          ∧ t.faults.hist = s.faults.hist ∧ { t with faults := s.faults } = s))
      ∧ (w.opened + 100000 ≤ s.now → w.extra ≠ 0 → Does (.faultWindowEnd key) s (fun t => Sp.get none t.faults.windows key = none
          ∧ t.faults.hist = lastN 256 (s.faults.hist ++ [{ w.rec_ with count := min w.extra 0xFFFF, num := s.faults.num % 2 ^ 32 }])
          ∧ t.faults.num = s.faults.num + 1 ∧ t.faults.totals = s.faults.totals)))
    ∧ (s.powered = true → s.board.removed = false → s.board.tripped = false → Does .presenceOpen s (fun t =>
        t.board = { s.board with removed := true, lossAt := some s.now } ∧ t.bru = { s.bru with halted := true }
        ∧ (∃ b, Wire.line b ∈ t.wire ∧ b.take 3 = bytes [3, 1, s.pair.st.code]) ∧ s.wire <+: t.wire
        ∧ (∀ q, 2 ≤ q → q ≤ 4 → (s.link q).up = true → Wire.lldp q 0 s.watch.serial s.clk.slotId q ∈ t.wire)
        ∧ (1 ∈ t.dome.pend ∨ 1 ∈ t.dome.refire) ∧ t.mem = s.mem ∧ t.parts = s.parts ∧ t.tenants = s.tenants))
    ∧ (s.board.removed = true → Leaves .presenceOpen s)
    ∧ (∀ n, s.board.lossAt = some n → s.powered = true → s.board.removed = true → (s.now < n + 1000 → Leaves .lossLineRepeat s)
        ∧ (n + 1000 ≤ s.now → Does .lossLineRepeat s (fun t => t.board = { s.board with lossAt := some s.now }
            ∧ (∃ b, t.wire = s.wire ++ [.line b] ∧ b.take 3 = bytes [3, 1, s.pair.st.code])
            ∧ { t with wire := s.wire, board := s.board, pair := s.pair, freeCtr := s.freeCtr } = s)))
    ∧ (s.board.st = .off → s.board.p4 = false → (s.board.resetLow = false → Does .powerGood s (fun t => t.clk.source = s.board.cause
          ∧ t.clk.kind = 1 ∧ t.bru.depth = 5 ∧ t.board.st = .on ∧ t.mem = {} ∧ t.faults.persist = s.faults.persist))
        ∧ (s.board.resetLow = true → Does .powerGood s (fun t => t.board = { st := .on, resetLow := true } ∧ t.mem = {})))
    ∧ (∀ ns, 10000 ≤ ns → s.board.st = .on → s.board.p4 = false → s.board.resetLow = false →
        Does (.modResetN false ns) s (fun t => t.board = { st := .on, resetLow := true } ∧ t.mem = {} ∧ t.parts = [] ∧ t.watch.oper = s.watch.oper)
        ∧ Does (.modResetN true ns) s (fun t => t.clk.source = 1 ∧ t.clk.kind = 1 ∧ t.bru.depth = 5 ∧ t.board.resetLow = false ∧ t.mem = {}))
    ∧ (∀ ns, 10000 ≤ ns → s.board.p4 = true → Does (.wakeN ns) s (fun t => t.board = { st := .off, cause := 2 } ∧ { t with board := s.board } = s))
    ∧ (∀ ns, (s.board.p4 = false ∨ ns < 10000) → Leaves (.wakeN ns) s)
    ∧ (∀ mv us, ((mv < 36000 ∧ 100 < us) ∨ (mv < 38000 ∧ 10000 < us) ∨ (62000 < mv ∧ 100 < us)) → Does (.inputFault mv us) s (fun t =>
        t.board.st = .off ∧ t.mem = {} ∧ t.parts = [] ∧ t.watch.oper = s.watch.oper ∧ t.faults.persist = s.faults.persist))
    ∧ (∀ mv us, 38000 ≤ mv → mv ≤ 62000 → Leaves (.inputFault mv us) s)

-- The statements in groups.

/-- Register reads latch and clear, and writes act by the access code. -/
def Obligations.RegistersReadAndWrite : Prop :=
  Claims.LowHalfReadLatchesHighHalf ∧ Claims.CounterReadClears ∧ Claims.RegisterWriteByAccessCode

/-- Refused page-table operations change no entry; ends and fills complete. -/
def Obligations.PageOperationsRefusedEndAndFill : Prop :=
  Claims.RefusedPageOperationChangesNoEntry ∧ Claims.PageOperationEndAndFill

/-- COMMIT and ABORT return a partition to BOUNDARY. -/
def Obligations.CommitAndAbort : Prop :=
  Claims.CommitRaisesStepCount ∧ Claims.AbortClearsStoppedStep

/-- Step count and deadline pairs, and bind writes over a rectangle. -/
def Obligations.StepCountDeadlineAndBindWrites : Prop :=
  Claims.StepCountAndDeadlineWrites ∧ Claims.BindWriteReachesRectangle

/-- Plate fetches fill the prefetch buffer, and cells take up segments. -/
def Obligations.PlateFetchAndSegmentAccept : Prop :=
  Claims.PlateFetchFillsPrefetch ∧ Claims.SegmentAcceptMovesDescriptors

/-- Operations start with their tokens and trackers and complete by posting. -/
def Obligations.OperationsStartAndComplete : Prop :=
  Claims.OperationStartTakesTokenAndTracker ∧ Claims.OperationCompletionPostsToken

/-- Barriers complete in order and stagger; the limiter grants at most sixteen. -/
def Obligations.BarriersAndLimiter : Prop :=
  Claims.BarriersPendCompleteAndStagger ∧ Claims.LimiterGrantsAtMostSixteen

/-- PHASE, END and the completion of a step. -/
def Obligations.PlateEndAndStepCompletion : Prop :=
  Claims.PhaseAndEndOfPlate ∧ Claims.StepCompletionStampsDone

/-- Stalls, misses, uncorrectable reads and refused accesses stop or report. -/
def Obligations.WatchdogsAndStops : Prop :=
  Claims.WatchdogsStopAndReport ∧ Claims.UncorrectableReadStops ∧ Claims.RefusedAccessStops

/-- VEC integer and floating-point functions, lane by lane. -/
def Obligations.VecIntegerAndFloatLanes : Prop :=
  Claims.VecIntegerLanes ∧ Claims.VecFloatLanes

/-- VEC conversion, reduction, movement, loads and stores. -/
def Obligations.VecConversionAndMemory : Prop :=
  Claims.VecConversionReductionMovement ∧ Claims.VecMemoryLoadsAndStores

/-- MATMUL accumulates a tile, and DRAIN writes it converted. -/
def Obligations.MatmulAndDrain : Prop :=
  Claims.MatmulAccumulatesTile ∧ Claims.DrainWritesConvertedTile

/-- MOVE writes every destination; COLD harvests and floods a page. -/
def Obligations.MoveAndCold : Prop :=
  Claims.MoveWritesEveryDestination ∧ Claims.ColdHarvestsAndFloods

/-- STRIN takes the next frame, and STROUT hands one to egress. -/
def Obligations.StrinAndStrout : Prop :=
  Claims.StrinTakesNextFrame ∧ Claims.StroutHandsFrameToEgress

/-- The patrol scrubber reads and corrects; a row copy zeroes what is lost. -/
def Obligations.PatrolAndRowCopy : Prop :=
  Claims.PatrolReadAdvancesAndCorrects ∧ Claims.RowCopyZeroesLostCodewords

/-- Cell repair, ageing checks, oscillator trim and flit resends. -/
def Obligations.CellRepairAndAgeing : Prop :=
  Claims.CellRepairRemapsRow ∧ Claims.AgeingTrimAndResend

/-- Commit records, replays and the releases of a standby. -/
def Obligations.CommitRecordsReplayAndStandby : Prop :=
  Claims.CommitRecordWrittenOnce ∧ Claims.ReplayAndStandbyRelease

/-- A rebuild restarts from the checkpoint; a scrub that ends frees. -/
def Obligations.RebuildAndScrubCompletion : Prop :=
  Claims.RebuildRestartsFromCheckpoint ∧ Claims.ScrubCompletionFreesResource

/-- Aperture words drain in order, ring registers signal, egress writes the ring. -/
def Obligations.ApertureRingAndEgress : Prop :=
  Claims.ApertureWordsDrainInOrder ∧ Claims.RingRegistersAndSignals ∧ Claims.EgressWritesRing

/-- Inbound frames are judged, and accepted when their log write is acknowledged. -/
def Obligations.InboundFramesAndLogAck : Prop :=
  Claims.InboundFrameIsJudged ∧ Claims.LogAckAcceptsFrame

/-- HELLO chooses the version, and SESSION derives the keys. -/
def Obligations.HelloAndSession : Prop :=
  Claims.HelloChoosesVersion ∧ Claims.SessionDerivesKeys

/-- Channel configuration, tenants, DDR4 channels and ranges. -/
def Obligations.ChannelsTenantsAndRanges : Prop :=
  Claims.ChannelConfiguration ∧ Claims.TenantsChannelsAndRanges

/-- Partitions, policies and pairs are made; deletions begin a scrub. -/
def Obligations.PartitionsPairsAndDeletions : Prop :=
  Claims.PartitionsPoliciesAndPairs ∧ Claims.DeletionsBeginScrub

/-- Contexts, sequences, video contexts and the attestation report. -/
def Obligations.ContextsVideoAndAttestation : Prop :=
  Claims.ContextsAndSequences ∧ Claims.VideoContextCommands ∧ Claims.AttestationReport

/-- Unloads wait for use; models, profiles and trees are registered. -/
def Obligations.UnloadsModelsAndProfiles : Prop :=
  Claims.UnloadsWaitForUse ∧ Claims.ModelsProfilesAndTrees

/-- Firmware transfer, trial, confirmation and fallback. -/
def Obligations.FirmwareTransferTrialAndFallback : Prop :=
  Claims.FirmwareTransfer ∧ Claims.FirmwareTrialAndFallback

/-- Stream datagrams are discarded or queued, and their deadlines judged. -/
def Obligations.StreamDatagramsAndDeadlines : Prop :=
  Claims.StreamPortsDiscardAndAnswer ∧ Claims.SensorAndReflexFramesQueue ∧ Claims.RtpPacketsAndStreamDeadlines

/-- Decoded pictures reach the host, and coded slices leave. -/
def Obligations.VideoPicturesAndSlices : Prop :=
  Claims.DecodedPicturesReachTheHost ∧ Claims.EncodedSlicesLeave

/-- Soft interrupts and timers; Dome cores start, are kicked and fail. -/
def Obligations.DomeCoresAndSoftInterrupts : Prop :=
  Claims.SoftInterruptsAndTimers ∧ Claims.DomeCoresStartAndFail

/-- Caps, policies, power states, intervals, samples and the climb after a clamp. -/
def Obligations.PowerCapsStatesAndClimb : Prop :=
  Claims.CapsPoliciesAndPowerStates ∧ Claims.PowerIntervalsSamplesAndClimb

/-- What each reset keeps, from a function to the module. -/
def Obligations.ResetDepthsAndPulses : Prop :=
  Claims.ResetPulseLengths ∧ Claims.FunctionAndPartitionReset ∧ Claims.ResetsKeepWhatTheirDepthKeeps

/-- The phases of bring-up start in order and end in READY or FAILED. -/
def Obligations.BringUpPhases : Prop :=
  Claims.BringUpPhasesStart ∧ Claims.BringUpReachesReady

/-- Management frames are checked, roles judged, and reads answered. -/
def Obligations.ManagementFramesRolesAndReads : Prop :=
  Claims.ManagementFramesAreChecked ∧ Claims.ManagementRolesAndLengths ∧ Claims.ManagementReads

/-- Management commands set keys, licences, caps, ports and streams, and reset. -/
def Obligations.ManagementSettingsStreamsAndResets : Prop :=
  Claims.ManagementSettings ∧ Claims.ManagementStreamsAndResets
end

