-- ==== Sys2Proof/Laws/Sparse.lean ====
section
/-!
SUPPORT. The sparse arrays and byte memories: a read after a write, and the canonical form that every operation keeps.
-/
namespace Sys2Proof.Machine

namespace Sp

variable {α : Type}

@[simp] theorem get_nil (d : α) (k : Nat) : get d ([] : Sparse α) k = d := rfl

theorem get_cons (d : α) (j : Nat) (v : α) (t : Sparse α) (k : Nat) :
    get d ((j, v) :: t) k = if j = k then v else get d t k := rfl

theorem get_put (d : α) (l : Sparse α) (k : Nat) (v : α) (i : Nat) :
    get d (put l k v) i = if k = i then v else get d l i := by
  induction l with
  | nil => rfl
  | cons e t ih =>
    obtain ⟨j, w⟩ := e
    simp only [put]
    split
    · rfl
    · split
      · next h =>
        subst h
        simp only [get_cons]
        split <;> rfl
      · next h =>
        simp only [get_cons, ih]
        split
        · next hji =>
          have : k ≠ i := fun h' => h (by omega)
          simp [this]
        · rfl

theorem get_del (d : α) (l : Sparse α) (k i : Nat) : get d (del l k) i = if k = i then d else get d l i := by
  induction l with
  | nil => simp [del]
  | cons e t ih =>
    obtain ⟨j, w⟩ := e
    simp only [del]
    split
    · next h =>
      subst h
      rw [ih, get_cons]
      split <;> rfl
    · next h =>
      simp only [get_cons, ih]
      split
      · next hji =>
        have : k ≠ i := fun h' => h (by omega)
        simp [this]
      · rfl

/-- A read after a write of one entry. -/
theorem get_set [DecidableEq α] (d : α) (l : Sparse α) (k : Nat) (v : α) (i : Nat) :
    get d (set d l k v) i = if k = i then v else get d l i := by
  simp only [set]
  split
  · next h => rw [get_del, h]
  · exact get_put d l k v i

@[simp] theorem get_set_same [DecidableEq α] (d : α) (l : Sparse α) (k : Nat) (v : α) : get d (set d l k v) k = v := by
  simp [get_set]

theorem get_set_ne [DecidableEq α] (d : α) (l : Sparse α) {k i : Nat} (v : α) (h : k ≠ i) :
    get d (set d l k v) i = get d l i := by
  simp [get_set, h]

/-- Indices rise strictly, as a property of the list of indices. -/
theorem sorted_iff (l : Sparse α) : sorted l = true ↔ l.Pairwise (fun a b => a.1 < b.1) := by
  induction l with
  | nil => simp [sorted]
  | cons e t ih =>
    obtain ⟨i, v⟩ := e
    cases t with
    | nil => simp [sorted]
    | cons e' t' =>
      obtain ⟨j, w⟩ := e'
      simp only [sorted, Bool.and_eq_true, decide_eq_true_eq, ih, List.pairwise_cons]
      constructor
      · rintro ⟨hij, hj, ht⟩
        refine ⟨?_, hj, ht⟩
        intro a ha
        rcases List.mem_cons.1 ha with h | h
        · subst h; exact hij
        · exact Nat.lt_trans hij (hj a h)
      · rintro ⟨hi, hj, ht⟩
        exact ⟨hi (j, w) (by simp), hj, ht⟩

/-- The canonical form in one statement. -/
theorem wf_iff [DecidableEq α] (d : α) (l : Sparse α) :
    wf d l = true ↔ l.Pairwise (fun a b => a.1 < b.1) ∧ ∀ e ∈ l, e.2 ≠ d := by
  simp [wf, sorted_iff]

theorem mem_put {l : Sparse α} {k : Nat} {v : α} {e : Nat × α} (h : e ∈ put l k v) : e = (k, v) ∨ e ∈ l := by
  induction l with
  | nil => simpa [put] using h
  | cons c t ih =>
    obtain ⟨j, w⟩ := c
    simp only [put] at h
    split at h
    · rcases List.mem_cons.1 h with h | h
      · exact .inl h
      · exact .inr h
    · split at h
      · rcases List.mem_cons.1 h with h | h
        · exact .inl h
        · exact .inr (List.mem_cons_of_mem _ h)
      · rcases List.mem_cons.1 h with h | h
        · exact .inr (h ▸ List.mem_cons_self ..)
        · rcases ih h with h | h
          · exact .inl h
          · exact .inr (List.mem_cons_of_mem _ h)

theorem mem_del {l : Sparse α} {k : Nat} {e : Nat × α} (h : e ∈ del l k) : e ∈ l := by
  induction l with
  | nil => simp [del] at h
  | cons c t ih =>
    obtain ⟨j, w⟩ := c
    simp only [del] at h
    split at h
    · exact List.mem_cons_of_mem _ (ih h)
    · rcases List.mem_cons.1 h with h | h
      · exact h ▸ List.mem_cons_self ..
      · exact List.mem_cons_of_mem _ (ih h)

theorem pairwise_put {l : Sparse α} (k : Nat) (v : α) (h : l.Pairwise (fun a b => a.1 < b.1)) :
    (put l k v).Pairwise (fun a b => a.1 < b.1) := by
  induction l with
  | nil => simp [put]
  | cons c t ih =>
    obtain ⟨j, w⟩ := c
    rw [List.pairwise_cons] at h
    simp only [put]
    split
    · next hk =>
      refine List.pairwise_cons.2 ⟨?_, List.pairwise_cons.2 h⟩
      intro a ha
      rcases List.mem_cons.1 ha with ha | ha
      · subst ha; exact hk
      · exact Nat.lt_trans hk (h.1 a ha)
    · split
      · next hk => subst hk; exact List.pairwise_cons.2 ⟨h.1, h.2⟩
      · next hk hne =>
        refine List.pairwise_cons.2 ⟨?_, ih h.2⟩
        intro a ha
        rcases mem_put ha with ha | ha
        · subst ha; show j < k; omega
        · exact h.1 a ha

theorem pairwise_del {l : Sparse α} (k : Nat) (h : l.Pairwise (fun a b => a.1 < b.1)) :
    (del l k).Pairwise (fun a b => a.1 < b.1) := by
  induction l with
  | nil => simp [del]
  | cons c t ih =>
    obtain ⟨j, w⟩ := c
    rw [List.pairwise_cons] at h
    simp only [del]
    split
    · exact ih h.2
    · exact List.pairwise_cons.2 ⟨fun a ha => h.1 a (mem_del ha), ih h.2⟩

/-- Writing one entry keeps the canonical form. -/
theorem set_wf [DecidableEq α] {d : α} {l : Sparse α} (h : wf d l = true) (k : Nat) (v : α) : wf d (set d l k v) = true := by
  rw [wf_iff] at h ⊢
  simp only [set]
  split
  · exact ⟨pairwise_del k h.1, fun e he => h.2 e (mem_del he)⟩
  · next hv =>
    refine ⟨pairwise_put k v h.1, fun e he => ?_⟩
    rcases mem_put he with he | he
    · subst he; exact hv
    · exact h.2 e he

/-- Removing one entry keeps the canonical form. -/
theorem del_wf [DecidableEq α] {d : α} {l : Sparse α} (h : wf d l = true) (k : Nat) : wf d (del l k) = true := by
  rw [wf_iff] at h ⊢
  exact ⟨pairwise_del k h.1, fun e he => h.2 e (mem_del he)⟩

theorem block_spec [DecidableEq α] (d : α) (vs : List α) (a : Nat) :
    (block d a vs).Pairwise (fun x y => x.1 < y.1) ∧ ∀ e ∈ block d a vs, a ≤ e.1 ∧ e.1 < a + vs.length ∧ e.2 ≠ d := by
  induction vs generalizing a with
  | nil => simp [block]
  | cons v t ih =>
    have hi := ih (a + 1)
    simp only [block]
    split
    · refine ⟨hi.1, fun e he => ?_⟩
      have := hi.2 e he
      simp only [List.length_cons]
      exact ⟨by omega, by omega, this.2.2⟩
    · next hv =>
      refine ⟨List.pairwise_cons.2 ⟨fun e he => by have := (hi.2 e he).1; show a < e.1; omega, hi.1⟩, fun e he => ?_⟩
      rcases List.mem_cons.1 he with he | he
      · subst he; simp only [List.length_cons]; exact ⟨Nat.le_refl _, by omega, hv⟩
      · have := hi.2 e he
        simp only [List.length_cons]
        exact ⟨by omega, by omega, this.2.2⟩

/-- Replacing a range by entries of that range keeps the canonical form. -/
theorem splice_wf [DecidableEq α] {d : α} {l : Sparse α} (h : wf d l = true) {a b : Nat} {mid : Sparse α}
    (hm : mid.Pairwise (fun x y => x.1 < y.1)) (hr : ∀ e ∈ mid, a ≤ e.1 ∧ e.1 < b ∧ e.2 ≠ d) (hab : a ≤ b) :
    wf d (splice l a b mid) = true := by
  rw [wf_iff] at h ⊢
  constructor
  · simp only [splice, List.pairwise_append]
    refine ⟨⟨h.1.filter _, hm, ?_⟩, h.1.filter _, ?_⟩
    · intro x hx y hy
      have hx' := (List.mem_filter.1 hx).2
      have := (hr y hy).1
      simp only [decide_eq_true_eq] at hx'
      omega
    · intro x hx y hy
      have hy' := (List.mem_filter.1 hy).2
      simp only [decide_eq_true_eq] at hy'
      rcases List.mem_append.1 hx with hx | hx
      · have hx' := (List.mem_filter.1 hx).2
        simp only [decide_eq_true_eq] at hx'
        omega
      · have := (hr x hx).2.1
        omega
  · intro e he
    simp only [splice, List.mem_append] at he
    rcases he with (he | he) | he
    · exact h.2 e (List.mem_filter.1 he).1
    · exact (hr e he).2.2
    · exact h.2 e (List.mem_filter.1 he).1

/-- Writing consecutive entries keeps the canonical form. -/
theorem write_wf [DecidableEq α] {d : α} {l : Sparse α} (h : wf d l = true) (a : Nat) (vs : List α) :
    wf d (write d l a vs) = true := by
  have hb := block_spec d vs a
  exact splice_wf h hb.1 hb.2 (Nat.le_add_right ..)

/-- Clearing a range keeps the canonical form. -/
theorem clear_wf [DecidableEq α] {d : α} {l : Sparse α} (h : wf d l = true) (a n : Nat) : wf d (clear l a n) = true :=
  splice_wf h List.Pairwise.nil (by simp) (Nat.le_add_right ..)

theorem get_append (d : α) (l m : Sparse α) (k : Nat) :
    get d (l ++ m) k = if l.any (fun e => e.1 == k) then get d l k else get d m k := by
  induction l with
  | nil => simp
  | cons e t ih =>
    obtain ⟨j, v⟩ := e
    simp only [List.cons_append, get_cons, ih, List.any_cons]
    by_cases h : j = k
    · simp [h]
    · have hb : (j == k) = false := by simp [h]
      simp only [if_neg h, hb, Bool.false_or]

theorem get_none (d : α) {l : Sparse α} {k : Nat} (h : ∀ e ∈ l, e.1 ≠ k) : get d l k = d := by
  induction l with
  | nil => rfl
  | cons e t ih =>
    obtain ⟨j, v⟩ := e
    rw [get_cons, if_neg (h (j, v) (List.mem_cons_self ..))]
    exact ih (fun e he => h e (List.mem_cons_of_mem _ he))

theorem get_filter (d : α) (l : Sparse α) (p : Nat → Bool) (k : Nat) :
    get d (l.filter (fun e => p e.1)) k = if p k then get d l k else d := by
  induction l with
  | nil => simp
  | cons e t ih =>
    obtain ⟨j, v⟩ := e
    simp only [List.filter_cons]
    by_cases hj : p j
    · simp only [hj, if_true, get_cons, ih]
      by_cases h : j = k
      · subst h; simp [hj]
      · simp [h]
    · rw [if_neg (by simpa using hj), ih, get_cons]
      by_cases h : j = k
      · subst h; simp [hj]
      · simp [h]

theorem get_block [DecidableEq α] (d : α) (vs : List α) (a k : Nat) :
    get d (block d a vs) k = if a ≤ k then vs.getD (k - a) d else d := by
  induction vs generalizing a with
  | nil => simp [block]
  | cons v t ih =>
    have hstep : ∀ h : a + 1 ≤ k, (v :: t).getD (k - a) d = t.getD (k - (a + 1)) d := by
      intro h
      have : k - a = (k - (a + 1)) + 1 := by omega
      rw [this]; rfl
    simp only [block]
    by_cases hk : a = k
    · subst hk
      have h0 : ¬ a + 1 ≤ a := by omega
      split
      · next hv => rw [ih, if_neg h0]; simp [hv]
      · simp [get_cons]
    · split
      · rw [ih]
        by_cases h : a + 1 ≤ k
        · rw [if_pos h, if_pos (by omega), hstep h]
        · rw [if_neg h, if_neg (by omega)]
      · rw [get_cons, if_neg hk, ih]
        by_cases h : a + 1 ≤ k
        · rw [if_pos h, if_pos (by omega), hstep h]
        · rw [if_neg h, if_neg (by omega)]

theorem any_filter_lt (l : Sparse α) (a k : Nat) (h : a ≤ k) :
    (l.filter (fun e => decide (e.1 < a))).any (fun e => e.1 == k) = false := by
  simp only [List.any_eq_false, List.mem_filter, decide_eq_true_eq, beq_iff_eq]
  intro e he hek; omega

/-- Every index outside a replaced range reads as before, and one inside it reads what replaced it. -/
theorem get_splice (d : α) (l : Sparse α) {a b : Nat} {mid : Sparse α} (hr : ∀ e ∈ mid, a ≤ e.1 ∧ e.1 < b) (k : Nat) :
    get d (splice l a b mid) k = if a ≤ k ∧ k < b then get d mid k else get d l k := by
  simp only [splice, List.append_assoc, get_append d (l.filter _)]
  have hlt := get_filter d l (fun j => decide (j < a)) k
  have hge := get_filter d l (fun j => decide (b ≤ j)) k
  by_cases h1 : k < a
  · rw [if_neg (by omega : ¬ (a ≤ k ∧ k < b))]
    split
    · rw [hlt]; simp [h1]
    · next hn =>
      have hmid : ∀ e ∈ mid, e.1 ≠ k := fun e he => by have := (hr e he).1; omega
      have hno : ∀ e ∈ l, e.1 ≠ k := by
        intro e he hek
        apply hn
        simp only [List.any_eq_true, List.mem_filter, decide_eq_true_eq, beq_iff_eq]
        exact ⟨e, ⟨he, by omega⟩, hek⟩
      have : ∀ e ∈ mid ++ l.filter (fun e => decide (b ≤ e.1)), e.1 ≠ k := by
        intro e he
        rcases List.mem_append.1 he with he | he
        · exact hmid e he
        · exact hno e (List.mem_filter.1 he).1
      rw [get_none d this, get_none d hno]
  · rw [any_filter_lt l a k (by omega), if_neg (by simp), get_append d mid, hge]
    by_cases h2 : k < b
    · rw [if_pos (⟨by omega, h2⟩ : a ≤ k ∧ k < b)]
      have hb : decide (b ≤ k) = false := by simp; omega
      rw [hb]
      split
      · rfl
      · next hn =>
        have hmid : ∀ e ∈ mid, e.1 ≠ k := by
          intro e he hek
          apply hn
          simp only [List.any_eq_true, beq_iff_eq]
          exact ⟨e, he, hek⟩
        rw [get_none d hmid]
        rfl
    · have hno : mid.any (fun e => e.1 == k) = false := by
        simp only [List.any_eq_false, beq_iff_eq]
        intro e he hek
        have := (hr e he).2
        omega
      have hb : decide (b ≤ k) = true := by simp; omega
      rw [hno, if_neg (by simp), hb, if_neg (by omega : ¬ (a ≤ k ∧ k < b))]
      rfl

/-- A read after a write of consecutive entries. -/
theorem get_write [DecidableEq α] (d : α) (l : Sparse α) (a : Nat) (vs : List α) (k : Nat) :
    get d (write d l a vs) k = if a ≤ k ∧ k < a + vs.length then vs.getD (k - a) d else get d l k := by
  have hb := block_spec d vs a
  rw [write, get_splice d l (fun e he => ⟨(hb.2 e he).1, (hb.2 e he).2.1⟩)]
  split
  · next h => rw [get_block, if_pos h.1]
  · rfl

/-- A read after a clear. -/
theorem get_clear (d : α) (l : Sparse α) (a n k : Nat) :
    get d (clear l a n) k = if a ≤ k ∧ k < a + n then d else get d l k := by
  rw [clear, get_splice d l (by simp)]
  rfl

end Sp

namespace Memory

/-- A byte after a write: a stored byte inside the range, the old one outside it. -/
theorem byte_write (m : List Host.Cell) (a : Nat) (b : Bytes) (k : Nat) :
    byte (write m a b) k = if a ≤ k ∧ k < a + b.length then b.getD (k - a) 0 else byte m k :=
  Sp.get_write 0 m a b k

/-- A byte after a clear. -/
theorem byte_clear (m : List Host.Cell) (a n k : Nat) :
    byte (clear m a n) k = if a ≤ k ∧ k < a + n then 0 else byte m k :=
  Sp.get_clear 0 m a n k

/-- Every byte outside the range that is written reads as before. -/
theorem byte_write_frame (m : List Host.Cell) (a : Nat) (b : Bytes) {k : Nat} (h : k < a ∨ a + b.length ≤ k) :
    byte (write m a b) k = byte m k := by
  rw [byte_write, if_neg (by omega)]

/-- A write keeps the canonical form. -/
theorem write_wf {m : List Host.Cell} (h : wf m = true) (a : Nat) (b : Bytes) : wf (write m a b) = true :=
  Sp.write_wf h a b

/-- A clear keeps the canonical form. -/
theorem clear_wf {m : List Host.Cell} (h : wf m = true) (a n : Nat) : wf (clear m a n) = true :=
  Sp.clear_wf h a n

end Memory

end Sys2Proof.Machine
end

