-- ==== Sys2Proof/Laws/State.lean ====
section
/-!
SUPPORT. What each update of the state leaves: the part written reads as written, its other indices and every other field
as before.
-/
namespace Sys2Proof.Machine

variable (s : State)


-- State.setCell, State.onCell.

theorem setCell_cell (n n' : Nat) (x : CellState) : (s.setCell n x).cell n' = if n = n' then x else s.cell n' :=
  Sp.get_set ..
@[simp] theorem setCell_cell_same (n : Nat) (x : CellState) : (s.setCell n x).cell n = x := Sp.get_set_same ..
@[simp] theorem onCell_eq (n : Nat) (g : CellState → CellState) : s.onCell n g = s.setCell n (g (s.cell n)) := rfl
@[simp] theorem setCell_pending (n : Nat) (x : CellState) : (s.setCell n x).pending = s.pending := rfl
@[simp] theorem setCell_mem (n : Nat) (x : CellState) : (s.setCell n x).mem = s.mem := rfl
@[simp] theorem setCell_pans (n : Nat) (x : CellState) : (s.setCell n x).pans = s.pans := rfl
@[simp] theorem setCell_ptw (n : Nat) (x : CellState) : (s.setCell n x).ptw = s.ptw := rfl
@[simp] theorem setCell_parts (n : Nat) (x : CellState) : (s.setCell n x).parts = s.parts := rfl
@[simp] theorem setCell_fns (n : Nat) (x : CellState) : (s.setCell n x).fns = s.fns := rfl
@[simp] theorem setCell_hps (n : Nat) (x : CellState) : (s.setCell n x).hps = s.hps := rfl
@[simp] theorem setCell_streams (n : Nat) (x : CellState) : (s.setCell n x).streams = s.streams := rfl
@[simp] theorem setCell_ctrls (n : Nat) (x : CellState) : (s.setCell n x).ctrls = s.ctrls := rfl
@[simp] theorem setCell_reflexq (n : Nat) (x : CellState) : (s.setCell n x).reflexq = s.reflexq := rfl
@[simp] theorem setCell_reflexCur (n : Nat) (x : CellState) : (s.setCell n x).reflexCur = s.reflexCur := rfl
@[simp] theorem setCell_sports (n : Nat) (x : CellState) : (s.setCell n x).sports = s.sports := rfl
@[simp] theorem setCell_links (n : Nat) (x : CellState) : (s.setCell n x).links = s.links := rfl
@[simp] theorem setCell_pair (n : Nat) (x : CellState) : (s.setCell n x).pair = s.pair := rfl
@[simp] theorem setCell_blocks (n : Nat) (x : CellState) : (s.setCell n x).blocks = s.blocks := rfl
@[simp] theorem setCell_power (n : Nat) (x : CellState) : (s.setCell n x).power = s.power := rfl
@[simp] theorem setCell_vpairs (n : Nat) (x : CellState) : (s.setCell n x).vpairs = s.vpairs := rfl
@[simp] theorem setCell_ddr (n : Nat) (x : CellState) : (s.setCell n x).ddr = s.ddr := rfl
@[simp] theorem setCell_tenants (n : Nat) (x : CellState) : (s.setCell n x).tenants = s.tenants := rfl
@[simp] theorem setCell_dome (n : Nat) (x : CellState) : (s.setCell n x).dome = s.dome := rfl
@[simp] theorem setCell_fw (n : Nat) (x : CellState) : (s.setCell n x).fw = s.fw := rfl
@[simp] theorem setCell_watch (n : Nat) (x : CellState) : (s.setCell n x).watch = s.watch := rfl
@[simp] theorem setCell_faults (n : Nat) (x : CellState) : (s.setCell n x).faults = s.faults := rfl
@[simp] theorem setCell_clk (n : Nat) (x : CellState) : (s.setCell n x).clk = s.clk := rfl
@[simp] theorem setCell_bru (n : Nat) (x : CellState) : (s.setCell n x).bru = s.bru := rfl
@[simp] theorem setCell_board (n : Nat) (x : CellState) : (s.setCell n x).board = s.board := rfl
@[simp] theorem setCell_mbeat (n : Nat) (x : CellState) : (s.setCell n x).mbeat = s.mbeat := rfl
@[simp] theorem setCell_seqCycle (n : Nat) (x : CellState) : (s.setCell n x).seqCycle = s.seqCycle := rfl
@[simp] theorem setCell_pmask (n : Nat) (x : CellState) : (s.setCell n x).pmask = s.pmask := rfl
@[simp] theorem setCell_scrubs (n : Nat) (x : CellState) : (s.setCell n x).scrubs = s.scrubs := rfl
@[simp] theorem setCell_filling (n : Nat) (x : CellState) : (s.setCell n x).filling = s.filling := rfl
@[simp] theorem setCell_latch (n : Nat) (x : CellState) : (s.setCell n x).latch = s.latch := rfl
@[simp] theorem setCell_lowBuf (n : Nat) (x : CellState) : (s.setCell n x).lowBuf = s.lowBuf := rfl
@[simp] theorem setCell_rdata (n : Nat) (x : CellState) : (s.setCell n x).rdata = s.rdata := rfl
@[simp] theorem setCell_wire (n : Nat) (x : CellState) : (s.setCell n x).wire = s.wire := rfl
@[simp] theorem setCell_freeCtr (n : Nat) (x : CellState) : (s.setCell n x).freeCtr = s.freeCtr := rfl
@[simp] theorem setCell_pan (n n' : Nat) (x : CellState) : (s.setCell n x).pan n' = s.pan n' := rfl
@[simp] theorem setCell_win (n w' : Nat) (x : CellState) : (s.setCell n x).win w' = s.win w' := rfl
@[simp] theorem setCell_part (n p' : Nat) (x : CellState) : (s.setCell n x).part p' = s.part p' := rfl
@[simp] theorem setCell_fn (n f' : Nat) (x : CellState) : (s.setCell n x).fn f' = s.fn f' := rfl
@[simp] theorem setCell_hp (n h' f' : Nat) (x : CellState) : (s.setCell n x).hp h' f' = s.hp h' f' := rfl
@[simp] theorem setCell_stream (n i' : Nat) (x : CellState) : (s.setCell n x).stream i' = s.stream i' := rfl
@[simp] theorem setCell_sport (n i' : Nat) (x : CellState) : (s.setCell n x).sport i' = s.sport i' := rfl
@[simp] theorem setCell_link (n i' : Nat) (x : CellState) : (s.setCell n x).link i' = s.link i' := rfl
@[simp] theorem setCell_block (n b' : Nat) (x : CellState) : (s.setCell n x).block b' = s.block b' := rfl
@[simp] theorem setCell_vpair (n k' : Nat) (x : CellState) : (s.setCell n x).vpair k' = s.vpair k' := rfl
@[simp] theorem setCell_dchan (n c' : Nat) (x : CellState) : (s.setCell n x).dchan c' = s.dchan c' := rfl
@[simp] theorem setCell_tenant (n t' : Nat) (x : CellState) : (s.setCell n x).tenant t' = s.tenant t' := rfl
@[simp] theorem setCell_core (n c' : Nat) (x : CellState) : (s.setCell n x).core c' = s.core c' := rfl

-- State.setPan, State.onPan.

theorem setPan_pan (n n' : Nat) (x : PanState) : (s.setPan n x).pan n' = if n = n' then x else s.pan n' :=
  Sp.get_set ..
@[simp] theorem setPan_pan_same (n : Nat) (x : PanState) : (s.setPan n x).pan n = x := Sp.get_set_same ..
@[simp] theorem onPan_eq (n : Nat) (g : PanState → PanState) : s.onPan n g = s.setPan n (g (s.pan n)) := rfl
@[simp] theorem setPan_pending (n : Nat) (x : PanState) : (s.setPan n x).pending = s.pending := rfl
@[simp] theorem setPan_mem (n : Nat) (x : PanState) : (s.setPan n x).mem = s.mem := rfl
@[simp] theorem setPan_cells (n : Nat) (x : PanState) : (s.setPan n x).cells = s.cells := rfl
@[simp] theorem setPan_ptw (n : Nat) (x : PanState) : (s.setPan n x).ptw = s.ptw := rfl
@[simp] theorem setPan_parts (n : Nat) (x : PanState) : (s.setPan n x).parts = s.parts := rfl
@[simp] theorem setPan_fns (n : Nat) (x : PanState) : (s.setPan n x).fns = s.fns := rfl
@[simp] theorem setPan_hps (n : Nat) (x : PanState) : (s.setPan n x).hps = s.hps := rfl
@[simp] theorem setPan_streams (n : Nat) (x : PanState) : (s.setPan n x).streams = s.streams := rfl
@[simp] theorem setPan_ctrls (n : Nat) (x : PanState) : (s.setPan n x).ctrls = s.ctrls := rfl
@[simp] theorem setPan_reflexq (n : Nat) (x : PanState) : (s.setPan n x).reflexq = s.reflexq := rfl
@[simp] theorem setPan_reflexCur (n : Nat) (x : PanState) : (s.setPan n x).reflexCur = s.reflexCur := rfl
@[simp] theorem setPan_sports (n : Nat) (x : PanState) : (s.setPan n x).sports = s.sports := rfl
@[simp] theorem setPan_links (n : Nat) (x : PanState) : (s.setPan n x).links = s.links := rfl
@[simp] theorem setPan_pair (n : Nat) (x : PanState) : (s.setPan n x).pair = s.pair := rfl
@[simp] theorem setPan_blocks (n : Nat) (x : PanState) : (s.setPan n x).blocks = s.blocks := rfl
@[simp] theorem setPan_power (n : Nat) (x : PanState) : (s.setPan n x).power = s.power := rfl
@[simp] theorem setPan_vpairs (n : Nat) (x : PanState) : (s.setPan n x).vpairs = s.vpairs := rfl
@[simp] theorem setPan_ddr (n : Nat) (x : PanState) : (s.setPan n x).ddr = s.ddr := rfl
@[simp] theorem setPan_tenants (n : Nat) (x : PanState) : (s.setPan n x).tenants = s.tenants := rfl
@[simp] theorem setPan_dome (n : Nat) (x : PanState) : (s.setPan n x).dome = s.dome := rfl
@[simp] theorem setPan_fw (n : Nat) (x : PanState) : (s.setPan n x).fw = s.fw := rfl
@[simp] theorem setPan_watch (n : Nat) (x : PanState) : (s.setPan n x).watch = s.watch := rfl
@[simp] theorem setPan_faults (n : Nat) (x : PanState) : (s.setPan n x).faults = s.faults := rfl
@[simp] theorem setPan_clk (n : Nat) (x : PanState) : (s.setPan n x).clk = s.clk := rfl
@[simp] theorem setPan_bru (n : Nat) (x : PanState) : (s.setPan n x).bru = s.bru := rfl
@[simp] theorem setPan_board (n : Nat) (x : PanState) : (s.setPan n x).board = s.board := rfl
@[simp] theorem setPan_mbeat (n : Nat) (x : PanState) : (s.setPan n x).mbeat = s.mbeat := rfl
@[simp] theorem setPan_seqCycle (n : Nat) (x : PanState) : (s.setPan n x).seqCycle = s.seqCycle := rfl
@[simp] theorem setPan_pmask (n : Nat) (x : PanState) : (s.setPan n x).pmask = s.pmask := rfl
@[simp] theorem setPan_scrubs (n : Nat) (x : PanState) : (s.setPan n x).scrubs = s.scrubs := rfl
@[simp] theorem setPan_filling (n : Nat) (x : PanState) : (s.setPan n x).filling = s.filling := rfl
@[simp] theorem setPan_latch (n : Nat) (x : PanState) : (s.setPan n x).latch = s.latch := rfl
@[simp] theorem setPan_lowBuf (n : Nat) (x : PanState) : (s.setPan n x).lowBuf = s.lowBuf := rfl
@[simp] theorem setPan_rdata (n : Nat) (x : PanState) : (s.setPan n x).rdata = s.rdata := rfl
@[simp] theorem setPan_wire (n : Nat) (x : PanState) : (s.setPan n x).wire = s.wire := rfl
@[simp] theorem setPan_freeCtr (n : Nat) (x : PanState) : (s.setPan n x).freeCtr = s.freeCtr := rfl
@[simp] theorem setPan_cell (n n' : Nat) (x : PanState) : (s.setPan n x).cell n' = s.cell n' := rfl
@[simp] theorem setPan_win (n w' : Nat) (x : PanState) : (s.setPan n x).win w' = s.win w' := rfl
@[simp] theorem setPan_part (n p' : Nat) (x : PanState) : (s.setPan n x).part p' = s.part p' := rfl
@[simp] theorem setPan_fn (n f' : Nat) (x : PanState) : (s.setPan n x).fn f' = s.fn f' := rfl
@[simp] theorem setPan_hp (n h' f' : Nat) (x : PanState) : (s.setPan n x).hp h' f' = s.hp h' f' := rfl
@[simp] theorem setPan_stream (n i' : Nat) (x : PanState) : (s.setPan n x).stream i' = s.stream i' := rfl
@[simp] theorem setPan_sport (n i' : Nat) (x : PanState) : (s.setPan n x).sport i' = s.sport i' := rfl
@[simp] theorem setPan_link (n i' : Nat) (x : PanState) : (s.setPan n x).link i' = s.link i' := rfl
@[simp] theorem setPan_block (n b' : Nat) (x : PanState) : (s.setPan n x).block b' = s.block b' := rfl
@[simp] theorem setPan_vpair (n k' : Nat) (x : PanState) : (s.setPan n x).vpair k' = s.vpair k' := rfl
@[simp] theorem setPan_dchan (n c' : Nat) (x : PanState) : (s.setPan n x).dchan c' = s.dchan c' := rfl
@[simp] theorem setPan_tenant (n t' : Nat) (x : PanState) : (s.setPan n x).tenant t' = s.tenant t' := rfl
@[simp] theorem setPan_core (n c' : Nat) (x : PanState) : (s.setPan n x).core c' = s.core c' := rfl

-- State.setWin, State.onWin.

theorem setWin_win (w w' : Nat) (x : PtWindow) : (s.setWin w x).win w' = if w = w' then x else s.win w' :=
  Sp.get_set ..
@[simp] theorem setWin_win_same (w : Nat) (x : PtWindow) : (s.setWin w x).win w = x := Sp.get_set_same ..
@[simp] theorem onWin_eq (w : Nat) (g : PtWindow → PtWindow) : s.onWin w g = s.setWin w (g (s.win w)) := rfl
@[simp] theorem setWin_pending (w : Nat) (x : PtWindow) : (s.setWin w x).pending = s.pending := rfl
@[simp] theorem setWin_mem (w : Nat) (x : PtWindow) : (s.setWin w x).mem = s.mem := rfl
@[simp] theorem setWin_cells (w : Nat) (x : PtWindow) : (s.setWin w x).cells = s.cells := rfl
@[simp] theorem setWin_pans (w : Nat) (x : PtWindow) : (s.setWin w x).pans = s.pans := rfl
@[simp] theorem setWin_parts (w : Nat) (x : PtWindow) : (s.setWin w x).parts = s.parts := rfl
@[simp] theorem setWin_fns (w : Nat) (x : PtWindow) : (s.setWin w x).fns = s.fns := rfl
@[simp] theorem setWin_hps (w : Nat) (x : PtWindow) : (s.setWin w x).hps = s.hps := rfl
@[simp] theorem setWin_streams (w : Nat) (x : PtWindow) : (s.setWin w x).streams = s.streams := rfl
@[simp] theorem setWin_ctrls (w : Nat) (x : PtWindow) : (s.setWin w x).ctrls = s.ctrls := rfl
@[simp] theorem setWin_reflexq (w : Nat) (x : PtWindow) : (s.setWin w x).reflexq = s.reflexq := rfl
@[simp] theorem setWin_reflexCur (w : Nat) (x : PtWindow) : (s.setWin w x).reflexCur = s.reflexCur := rfl
@[simp] theorem setWin_sports (w : Nat) (x : PtWindow) : (s.setWin w x).sports = s.sports := rfl
@[simp] theorem setWin_links (w : Nat) (x : PtWindow) : (s.setWin w x).links = s.links := rfl
@[simp] theorem setWin_pair (w : Nat) (x : PtWindow) : (s.setWin w x).pair = s.pair := rfl
@[simp] theorem setWin_blocks (w : Nat) (x : PtWindow) : (s.setWin w x).blocks = s.blocks := rfl
@[simp] theorem setWin_power (w : Nat) (x : PtWindow) : (s.setWin w x).power = s.power := rfl
@[simp] theorem setWin_vpairs (w : Nat) (x : PtWindow) : (s.setWin w x).vpairs = s.vpairs := rfl
@[simp] theorem setWin_ddr (w : Nat) (x : PtWindow) : (s.setWin w x).ddr = s.ddr := rfl
@[simp] theorem setWin_tenants (w : Nat) (x : PtWindow) : (s.setWin w x).tenants = s.tenants := rfl
@[simp] theorem setWin_dome (w : Nat) (x : PtWindow) : (s.setWin w x).dome = s.dome := rfl
@[simp] theorem setWin_fw (w : Nat) (x : PtWindow) : (s.setWin w x).fw = s.fw := rfl
@[simp] theorem setWin_watch (w : Nat) (x : PtWindow) : (s.setWin w x).watch = s.watch := rfl
@[simp] theorem setWin_faults (w : Nat) (x : PtWindow) : (s.setWin w x).faults = s.faults := rfl
@[simp] theorem setWin_clk (w : Nat) (x : PtWindow) : (s.setWin w x).clk = s.clk := rfl
@[simp] theorem setWin_bru (w : Nat) (x : PtWindow) : (s.setWin w x).bru = s.bru := rfl
@[simp] theorem setWin_board (w : Nat) (x : PtWindow) : (s.setWin w x).board = s.board := rfl
@[simp] theorem setWin_mbeat (w : Nat) (x : PtWindow) : (s.setWin w x).mbeat = s.mbeat := rfl
@[simp] theorem setWin_seqCycle (w : Nat) (x : PtWindow) : (s.setWin w x).seqCycle = s.seqCycle := rfl
@[simp] theorem setWin_pmask (w : Nat) (x : PtWindow) : (s.setWin w x).pmask = s.pmask := rfl
@[simp] theorem setWin_scrubs (w : Nat) (x : PtWindow) : (s.setWin w x).scrubs = s.scrubs := rfl
@[simp] theorem setWin_filling (w : Nat) (x : PtWindow) : (s.setWin w x).filling = s.filling := rfl
@[simp] theorem setWin_latch (w : Nat) (x : PtWindow) : (s.setWin w x).latch = s.latch := rfl
@[simp] theorem setWin_lowBuf (w : Nat) (x : PtWindow) : (s.setWin w x).lowBuf = s.lowBuf := rfl
@[simp] theorem setWin_rdata (w : Nat) (x : PtWindow) : (s.setWin w x).rdata = s.rdata := rfl
@[simp] theorem setWin_wire (w : Nat) (x : PtWindow) : (s.setWin w x).wire = s.wire := rfl
@[simp] theorem setWin_freeCtr (w : Nat) (x : PtWindow) : (s.setWin w x).freeCtr = s.freeCtr := rfl
@[simp] theorem setWin_cell (w n' : Nat) (x : PtWindow) : (s.setWin w x).cell n' = s.cell n' := rfl
@[simp] theorem setWin_pan (w n' : Nat) (x : PtWindow) : (s.setWin w x).pan n' = s.pan n' := rfl
@[simp] theorem setWin_part (w p' : Nat) (x : PtWindow) : (s.setWin w x).part p' = s.part p' := rfl
@[simp] theorem setWin_fn (w f' : Nat) (x : PtWindow) : (s.setWin w x).fn f' = s.fn f' := rfl
@[simp] theorem setWin_hp (w h' f' : Nat) (x : PtWindow) : (s.setWin w x).hp h' f' = s.hp h' f' := rfl
@[simp] theorem setWin_stream (w i' : Nat) (x : PtWindow) : (s.setWin w x).stream i' = s.stream i' := rfl
@[simp] theorem setWin_sport (w i' : Nat) (x : PtWindow) : (s.setWin w x).sport i' = s.sport i' := rfl
@[simp] theorem setWin_link (w i' : Nat) (x : PtWindow) : (s.setWin w x).link i' = s.link i' := rfl
@[simp] theorem setWin_block (w b' : Nat) (x : PtWindow) : (s.setWin w x).block b' = s.block b' := rfl
@[simp] theorem setWin_vpair (w k' : Nat) (x : PtWindow) : (s.setWin w x).vpair k' = s.vpair k' := rfl
@[simp] theorem setWin_dchan (w c' : Nat) (x : PtWindow) : (s.setWin w x).dchan c' = s.dchan c' := rfl
@[simp] theorem setWin_tenant (w t' : Nat) (x : PtWindow) : (s.setWin w x).tenant t' = s.tenant t' := rfl
@[simp] theorem setWin_core (w c' : Nat) (x : PtWindow) : (s.setWin w x).core c' = s.core c' := rfl

-- State.setPart, State.onPart.

theorem setPart_part (p p' : Nat) (x : Part) : (s.setPart p x).part p' = if p = p' then x else s.part p' :=
  Sp.get_set ..
@[simp] theorem setPart_part_same (p : Nat) (x : Part) : (s.setPart p x).part p = x := Sp.get_set_same ..
@[simp] theorem onPart_eq (p : Nat) (g : Part → Part) : s.onPart p g = s.setPart p (g (s.part p)) := rfl
@[simp] theorem setPart_pending (p : Nat) (x : Part) : (s.setPart p x).pending = s.pending := rfl
@[simp] theorem setPart_mem (p : Nat) (x : Part) : (s.setPart p x).mem = s.mem := rfl
@[simp] theorem setPart_cells (p : Nat) (x : Part) : (s.setPart p x).cells = s.cells := rfl
@[simp] theorem setPart_pans (p : Nat) (x : Part) : (s.setPart p x).pans = s.pans := rfl
@[simp] theorem setPart_ptw (p : Nat) (x : Part) : (s.setPart p x).ptw = s.ptw := rfl
@[simp] theorem setPart_fns (p : Nat) (x : Part) : (s.setPart p x).fns = s.fns := rfl
@[simp] theorem setPart_hps (p : Nat) (x : Part) : (s.setPart p x).hps = s.hps := rfl
@[simp] theorem setPart_streams (p : Nat) (x : Part) : (s.setPart p x).streams = s.streams := rfl
@[simp] theorem setPart_ctrls (p : Nat) (x : Part) : (s.setPart p x).ctrls = s.ctrls := rfl
@[simp] theorem setPart_reflexq (p : Nat) (x : Part) : (s.setPart p x).reflexq = s.reflexq := rfl
@[simp] theorem setPart_reflexCur (p : Nat) (x : Part) : (s.setPart p x).reflexCur = s.reflexCur := rfl
@[simp] theorem setPart_sports (p : Nat) (x : Part) : (s.setPart p x).sports = s.sports := rfl
@[simp] theorem setPart_links (p : Nat) (x : Part) : (s.setPart p x).links = s.links := rfl
@[simp] theorem setPart_pair (p : Nat) (x : Part) : (s.setPart p x).pair = s.pair := rfl
@[simp] theorem setPart_blocks (p : Nat) (x : Part) : (s.setPart p x).blocks = s.blocks := rfl
@[simp] theorem setPart_power (p : Nat) (x : Part) : (s.setPart p x).power = s.power := rfl
@[simp] theorem setPart_vpairs (p : Nat) (x : Part) : (s.setPart p x).vpairs = s.vpairs := rfl
@[simp] theorem setPart_ddr (p : Nat) (x : Part) : (s.setPart p x).ddr = s.ddr := rfl
@[simp] theorem setPart_tenants (p : Nat) (x : Part) : (s.setPart p x).tenants = s.tenants := rfl
@[simp] theorem setPart_dome (p : Nat) (x : Part) : (s.setPart p x).dome = s.dome := rfl
@[simp] theorem setPart_fw (p : Nat) (x : Part) : (s.setPart p x).fw = s.fw := rfl
@[simp] theorem setPart_watch (p : Nat) (x : Part) : (s.setPart p x).watch = s.watch := rfl
@[simp] theorem setPart_faults (p : Nat) (x : Part) : (s.setPart p x).faults = s.faults := rfl
@[simp] theorem setPart_clk (p : Nat) (x : Part) : (s.setPart p x).clk = s.clk := rfl
@[simp] theorem setPart_bru (p : Nat) (x : Part) : (s.setPart p x).bru = s.bru := rfl
@[simp] theorem setPart_board (p : Nat) (x : Part) : (s.setPart p x).board = s.board := rfl
@[simp] theorem setPart_mbeat (p : Nat) (x : Part) : (s.setPart p x).mbeat = s.mbeat := rfl
@[simp] theorem setPart_seqCycle (p : Nat) (x : Part) : (s.setPart p x).seqCycle = s.seqCycle := rfl
@[simp] theorem setPart_pmask (p : Nat) (x : Part) : (s.setPart p x).pmask = s.pmask := rfl
@[simp] theorem setPart_scrubs (p : Nat) (x : Part) : (s.setPart p x).scrubs = s.scrubs := rfl
@[simp] theorem setPart_filling (p : Nat) (x : Part) : (s.setPart p x).filling = s.filling := rfl
@[simp] theorem setPart_latch (p : Nat) (x : Part) : (s.setPart p x).latch = s.latch := rfl
@[simp] theorem setPart_lowBuf (p : Nat) (x : Part) : (s.setPart p x).lowBuf = s.lowBuf := rfl
@[simp] theorem setPart_rdata (p : Nat) (x : Part) : (s.setPart p x).rdata = s.rdata := rfl
@[simp] theorem setPart_wire (p : Nat) (x : Part) : (s.setPart p x).wire = s.wire := rfl
@[simp] theorem setPart_freeCtr (p : Nat) (x : Part) : (s.setPart p x).freeCtr = s.freeCtr := rfl
@[simp] theorem setPart_cell (p n' : Nat) (x : Part) : (s.setPart p x).cell n' = s.cell n' := rfl
@[simp] theorem setPart_pan (p n' : Nat) (x : Part) : (s.setPart p x).pan n' = s.pan n' := rfl
@[simp] theorem setPart_win (p w' : Nat) (x : Part) : (s.setPart p x).win w' = s.win w' := rfl
@[simp] theorem setPart_fn (p f' : Nat) (x : Part) : (s.setPart p x).fn f' = s.fn f' := rfl
@[simp] theorem setPart_hp (p h' f' : Nat) (x : Part) : (s.setPart p x).hp h' f' = s.hp h' f' := rfl
@[simp] theorem setPart_stream (p i' : Nat) (x : Part) : (s.setPart p x).stream i' = s.stream i' := rfl
@[simp] theorem setPart_sport (p i' : Nat) (x : Part) : (s.setPart p x).sport i' = s.sport i' := rfl
@[simp] theorem setPart_link (p i' : Nat) (x : Part) : (s.setPart p x).link i' = s.link i' := rfl
@[simp] theorem setPart_block (p b' : Nat) (x : Part) : (s.setPart p x).block b' = s.block b' := rfl
@[simp] theorem setPart_vpair (p k' : Nat) (x : Part) : (s.setPart p x).vpair k' = s.vpair k' := rfl
@[simp] theorem setPart_dchan (p c' : Nat) (x : Part) : (s.setPart p x).dchan c' = s.dchan c' := rfl
@[simp] theorem setPart_tenant (p t' : Nat) (x : Part) : (s.setPart p x).tenant t' = s.tenant t' := rfl
@[simp] theorem setPart_core (p c' : Nat) (x : Part) : (s.setPart p x).core c' = s.core c' := rfl

-- State.setFn, State.onFn.

theorem setFn_fn (f f' : Nat) (x : Fn) : (s.setFn f x).fn f' = if f = f' then x else s.fn f' :=
  Sp.get_set ..
@[simp] theorem setFn_fn_same (f : Nat) (x : Fn) : (s.setFn f x).fn f = x := Sp.get_set_same ..
@[simp] theorem onFn_eq (f : Nat) (g : Fn → Fn) : s.onFn f g = s.setFn f (g (s.fn f)) := rfl
@[simp] theorem setFn_pending (f : Nat) (x : Fn) : (s.setFn f x).pending = s.pending := rfl
@[simp] theorem setFn_mem (f : Nat) (x : Fn) : (s.setFn f x).mem = s.mem := rfl
@[simp] theorem setFn_cells (f : Nat) (x : Fn) : (s.setFn f x).cells = s.cells := rfl
@[simp] theorem setFn_pans (f : Nat) (x : Fn) : (s.setFn f x).pans = s.pans := rfl
@[simp] theorem setFn_ptw (f : Nat) (x : Fn) : (s.setFn f x).ptw = s.ptw := rfl
@[simp] theorem setFn_parts (f : Nat) (x : Fn) : (s.setFn f x).parts = s.parts := rfl
@[simp] theorem setFn_hps (f : Nat) (x : Fn) : (s.setFn f x).hps = s.hps := rfl
@[simp] theorem setFn_streams (f : Nat) (x : Fn) : (s.setFn f x).streams = s.streams := rfl
@[simp] theorem setFn_ctrls (f : Nat) (x : Fn) : (s.setFn f x).ctrls = s.ctrls := rfl
@[simp] theorem setFn_reflexq (f : Nat) (x : Fn) : (s.setFn f x).reflexq = s.reflexq := rfl
@[simp] theorem setFn_reflexCur (f : Nat) (x : Fn) : (s.setFn f x).reflexCur = s.reflexCur := rfl
@[simp] theorem setFn_sports (f : Nat) (x : Fn) : (s.setFn f x).sports = s.sports := rfl
@[simp] theorem setFn_links (f : Nat) (x : Fn) : (s.setFn f x).links = s.links := rfl
@[simp] theorem setFn_pair (f : Nat) (x : Fn) : (s.setFn f x).pair = s.pair := rfl
@[simp] theorem setFn_blocks (f : Nat) (x : Fn) : (s.setFn f x).blocks = s.blocks := rfl
@[simp] theorem setFn_power (f : Nat) (x : Fn) : (s.setFn f x).power = s.power := rfl
@[simp] theorem setFn_vpairs (f : Nat) (x : Fn) : (s.setFn f x).vpairs = s.vpairs := rfl
@[simp] theorem setFn_ddr (f : Nat) (x : Fn) : (s.setFn f x).ddr = s.ddr := rfl
@[simp] theorem setFn_tenants (f : Nat) (x : Fn) : (s.setFn f x).tenants = s.tenants := rfl
@[simp] theorem setFn_dome (f : Nat) (x : Fn) : (s.setFn f x).dome = s.dome := rfl
@[simp] theorem setFn_fw (f : Nat) (x : Fn) : (s.setFn f x).fw = s.fw := rfl
@[simp] theorem setFn_watch (f : Nat) (x : Fn) : (s.setFn f x).watch = s.watch := rfl
@[simp] theorem setFn_faults (f : Nat) (x : Fn) : (s.setFn f x).faults = s.faults := rfl
@[simp] theorem setFn_clk (f : Nat) (x : Fn) : (s.setFn f x).clk = s.clk := rfl
@[simp] theorem setFn_bru (f : Nat) (x : Fn) : (s.setFn f x).bru = s.bru := rfl
@[simp] theorem setFn_board (f : Nat) (x : Fn) : (s.setFn f x).board = s.board := rfl
@[simp] theorem setFn_mbeat (f : Nat) (x : Fn) : (s.setFn f x).mbeat = s.mbeat := rfl
@[simp] theorem setFn_seqCycle (f : Nat) (x : Fn) : (s.setFn f x).seqCycle = s.seqCycle := rfl
@[simp] theorem setFn_pmask (f : Nat) (x : Fn) : (s.setFn f x).pmask = s.pmask := rfl
@[simp] theorem setFn_scrubs (f : Nat) (x : Fn) : (s.setFn f x).scrubs = s.scrubs := rfl
@[simp] theorem setFn_filling (f : Nat) (x : Fn) : (s.setFn f x).filling = s.filling := rfl
@[simp] theorem setFn_latch (f : Nat) (x : Fn) : (s.setFn f x).latch = s.latch := rfl
@[simp] theorem setFn_lowBuf (f : Nat) (x : Fn) : (s.setFn f x).lowBuf = s.lowBuf := rfl
@[simp] theorem setFn_rdata (f : Nat) (x : Fn) : (s.setFn f x).rdata = s.rdata := rfl
@[simp] theorem setFn_wire (f : Nat) (x : Fn) : (s.setFn f x).wire = s.wire := rfl
@[simp] theorem setFn_freeCtr (f : Nat) (x : Fn) : (s.setFn f x).freeCtr = s.freeCtr := rfl
@[simp] theorem setFn_cell (f n' : Nat) (x : Fn) : (s.setFn f x).cell n' = s.cell n' := rfl
@[simp] theorem setFn_pan (f n' : Nat) (x : Fn) : (s.setFn f x).pan n' = s.pan n' := rfl
@[simp] theorem setFn_win (f w' : Nat) (x : Fn) : (s.setFn f x).win w' = s.win w' := rfl
@[simp] theorem setFn_part (f p' : Nat) (x : Fn) : (s.setFn f x).part p' = s.part p' := rfl
@[simp] theorem setFn_hp (f h' f' : Nat) (x : Fn) : (s.setFn f x).hp h' f' = s.hp h' f' := rfl
@[simp] theorem setFn_stream (f i' : Nat) (x : Fn) : (s.setFn f x).stream i' = s.stream i' := rfl
@[simp] theorem setFn_sport (f i' : Nat) (x : Fn) : (s.setFn f x).sport i' = s.sport i' := rfl
@[simp] theorem setFn_link (f i' : Nat) (x : Fn) : (s.setFn f x).link i' = s.link i' := rfl
@[simp] theorem setFn_block (f b' : Nat) (x : Fn) : (s.setFn f x).block b' = s.block b' := rfl
@[simp] theorem setFn_vpair (f k' : Nat) (x : Fn) : (s.setFn f x).vpair k' = s.vpair k' := rfl
@[simp] theorem setFn_dchan (f c' : Nat) (x : Fn) : (s.setFn f x).dchan c' = s.dchan c' := rfl
@[simp] theorem setFn_tenant (f t' : Nat) (x : Fn) : (s.setFn f x).tenant t' = s.tenant t' := rfl
@[simp] theorem setFn_core (f c' : Nat) (x : Fn) : (s.setFn f x).core c' = s.core c' := rfl

-- State.setHp, State.onHp.

theorem setHp_hp (h f h' f' : Nat) (x : HostPort) : (s.setHp h f x).hp h' f' = if 17 * h + f = 17 * h' + f' then x else s.hp h' f' :=
  Sp.get_set ..
@[simp] theorem setHp_hp_same (h f : Nat) (x : HostPort) : (s.setHp h f x).hp h f = x := Sp.get_set_same ..
@[simp] theorem onHp_eq (h f : Nat) (g : HostPort → HostPort) : s.onHp h f g = s.setHp h f (g (s.hp h f)) := rfl
@[simp] theorem setHp_pending (h f : Nat) (x : HostPort) : (s.setHp h f x).pending = s.pending := rfl
@[simp] theorem setHp_mem (h f : Nat) (x : HostPort) : (s.setHp h f x).mem = s.mem := rfl
@[simp] theorem setHp_cells (h f : Nat) (x : HostPort) : (s.setHp h f x).cells = s.cells := rfl
@[simp] theorem setHp_pans (h f : Nat) (x : HostPort) : (s.setHp h f x).pans = s.pans := rfl
@[simp] theorem setHp_ptw (h f : Nat) (x : HostPort) : (s.setHp h f x).ptw = s.ptw := rfl
@[simp] theorem setHp_parts (h f : Nat) (x : HostPort) : (s.setHp h f x).parts = s.parts := rfl
@[simp] theorem setHp_fns (h f : Nat) (x : HostPort) : (s.setHp h f x).fns = s.fns := rfl
@[simp] theorem setHp_streams (h f : Nat) (x : HostPort) : (s.setHp h f x).streams = s.streams := rfl
@[simp] theorem setHp_ctrls (h f : Nat) (x : HostPort) : (s.setHp h f x).ctrls = s.ctrls := rfl
@[simp] theorem setHp_reflexq (h f : Nat) (x : HostPort) : (s.setHp h f x).reflexq = s.reflexq := rfl
@[simp] theorem setHp_reflexCur (h f : Nat) (x : HostPort) : (s.setHp h f x).reflexCur = s.reflexCur := rfl
@[simp] theorem setHp_sports (h f : Nat) (x : HostPort) : (s.setHp h f x).sports = s.sports := rfl
@[simp] theorem setHp_links (h f : Nat) (x : HostPort) : (s.setHp h f x).links = s.links := rfl
@[simp] theorem setHp_pair (h f : Nat) (x : HostPort) : (s.setHp h f x).pair = s.pair := rfl
@[simp] theorem setHp_blocks (h f : Nat) (x : HostPort) : (s.setHp h f x).blocks = s.blocks := rfl
@[simp] theorem setHp_power (h f : Nat) (x : HostPort) : (s.setHp h f x).power = s.power := rfl
@[simp] theorem setHp_vpairs (h f : Nat) (x : HostPort) : (s.setHp h f x).vpairs = s.vpairs := rfl
@[simp] theorem setHp_ddr (h f : Nat) (x : HostPort) : (s.setHp h f x).ddr = s.ddr := rfl
@[simp] theorem setHp_tenants (h f : Nat) (x : HostPort) : (s.setHp h f x).tenants = s.tenants := rfl
@[simp] theorem setHp_dome (h f : Nat) (x : HostPort) : (s.setHp h f x).dome = s.dome := rfl
@[simp] theorem setHp_fw (h f : Nat) (x : HostPort) : (s.setHp h f x).fw = s.fw := rfl
@[simp] theorem setHp_watch (h f : Nat) (x : HostPort) : (s.setHp h f x).watch = s.watch := rfl
@[simp] theorem setHp_faults (h f : Nat) (x : HostPort) : (s.setHp h f x).faults = s.faults := rfl
@[simp] theorem setHp_clk (h f : Nat) (x : HostPort) : (s.setHp h f x).clk = s.clk := rfl
@[simp] theorem setHp_bru (h f : Nat) (x : HostPort) : (s.setHp h f x).bru = s.bru := rfl
@[simp] theorem setHp_board (h f : Nat) (x : HostPort) : (s.setHp h f x).board = s.board := rfl
@[simp] theorem setHp_mbeat (h f : Nat) (x : HostPort) : (s.setHp h f x).mbeat = s.mbeat := rfl
@[simp] theorem setHp_seqCycle (h f : Nat) (x : HostPort) : (s.setHp h f x).seqCycle = s.seqCycle := rfl
@[simp] theorem setHp_pmask (h f : Nat) (x : HostPort) : (s.setHp h f x).pmask = s.pmask := rfl
@[simp] theorem setHp_scrubs (h f : Nat) (x : HostPort) : (s.setHp h f x).scrubs = s.scrubs := rfl
@[simp] theorem setHp_filling (h f : Nat) (x : HostPort) : (s.setHp h f x).filling = s.filling := rfl
@[simp] theorem setHp_latch (h f : Nat) (x : HostPort) : (s.setHp h f x).latch = s.latch := rfl
@[simp] theorem setHp_lowBuf (h f : Nat) (x : HostPort) : (s.setHp h f x).lowBuf = s.lowBuf := rfl
@[simp] theorem setHp_rdata (h f : Nat) (x : HostPort) : (s.setHp h f x).rdata = s.rdata := rfl
@[simp] theorem setHp_wire (h f : Nat) (x : HostPort) : (s.setHp h f x).wire = s.wire := rfl
@[simp] theorem setHp_freeCtr (h f : Nat) (x : HostPort) : (s.setHp h f x).freeCtr = s.freeCtr := rfl
@[simp] theorem setHp_cell (h f n' : Nat) (x : HostPort) : (s.setHp h f x).cell n' = s.cell n' := rfl
@[simp] theorem setHp_pan (h f n' : Nat) (x : HostPort) : (s.setHp h f x).pan n' = s.pan n' := rfl
@[simp] theorem setHp_win (h f w' : Nat) (x : HostPort) : (s.setHp h f x).win w' = s.win w' := rfl
@[simp] theorem setHp_part (h f p' : Nat) (x : HostPort) : (s.setHp h f x).part p' = s.part p' := rfl
@[simp] theorem setHp_fn (h f f' : Nat) (x : HostPort) : (s.setHp h f x).fn f' = s.fn f' := rfl
@[simp] theorem setHp_stream (h f i' : Nat) (x : HostPort) : (s.setHp h f x).stream i' = s.stream i' := rfl
@[simp] theorem setHp_sport (h f i' : Nat) (x : HostPort) : (s.setHp h f x).sport i' = s.sport i' := rfl
@[simp] theorem setHp_link (h f i' : Nat) (x : HostPort) : (s.setHp h f x).link i' = s.link i' := rfl
@[simp] theorem setHp_block (h f b' : Nat) (x : HostPort) : (s.setHp h f x).block b' = s.block b' := rfl
@[simp] theorem setHp_vpair (h f k' : Nat) (x : HostPort) : (s.setHp h f x).vpair k' = s.vpair k' := rfl
@[simp] theorem setHp_dchan (h f c' : Nat) (x : HostPort) : (s.setHp h f x).dchan c' = s.dchan c' := rfl
@[simp] theorem setHp_tenant (h f t' : Nat) (x : HostPort) : (s.setHp h f x).tenant t' = s.tenant t' := rfl
@[simp] theorem setHp_core (h f c' : Nat) (x : HostPort) : (s.setHp h f x).core c' = s.core c' := rfl

-- State.setStream, State.onStream.

theorem setStream_stream (i i' : Nat) (x : Option StreamEntry) : (s.setStream i x).stream i' = if i = i' then x else s.stream i' :=
  Sp.get_set ..
@[simp] theorem setStream_stream_same (i : Nat) (x : Option StreamEntry) : (s.setStream i x).stream i = x := Sp.get_set_same ..
@[simp] theorem setStream_pending (i : Nat) (x : Option StreamEntry) : (s.setStream i x).pending = s.pending := rfl
@[simp] theorem setStream_mem (i : Nat) (x : Option StreamEntry) : (s.setStream i x).mem = s.mem := rfl
@[simp] theorem setStream_cells (i : Nat) (x : Option StreamEntry) : (s.setStream i x).cells = s.cells := rfl
@[simp] theorem setStream_pans (i : Nat) (x : Option StreamEntry) : (s.setStream i x).pans = s.pans := rfl
@[simp] theorem setStream_ptw (i : Nat) (x : Option StreamEntry) : (s.setStream i x).ptw = s.ptw := rfl
@[simp] theorem setStream_parts (i : Nat) (x : Option StreamEntry) : (s.setStream i x).parts = s.parts := rfl
@[simp] theorem setStream_fns (i : Nat) (x : Option StreamEntry) : (s.setStream i x).fns = s.fns := rfl
@[simp] theorem setStream_hps (i : Nat) (x : Option StreamEntry) : (s.setStream i x).hps = s.hps := rfl
@[simp] theorem setStream_ctrls (i : Nat) (x : Option StreamEntry) : (s.setStream i x).ctrls = s.ctrls := rfl
@[simp] theorem setStream_reflexq (i : Nat) (x : Option StreamEntry) : (s.setStream i x).reflexq = s.reflexq := rfl
@[simp] theorem setStream_reflexCur (i : Nat) (x : Option StreamEntry) : (s.setStream i x).reflexCur = s.reflexCur := rfl
@[simp] theorem setStream_sports (i : Nat) (x : Option StreamEntry) : (s.setStream i x).sports = s.sports := rfl
@[simp] theorem setStream_links (i : Nat) (x : Option StreamEntry) : (s.setStream i x).links = s.links := rfl
@[simp] theorem setStream_pair (i : Nat) (x : Option StreamEntry) : (s.setStream i x).pair = s.pair := rfl
@[simp] theorem setStream_blocks (i : Nat) (x : Option StreamEntry) : (s.setStream i x).blocks = s.blocks := rfl
@[simp] theorem setStream_power (i : Nat) (x : Option StreamEntry) : (s.setStream i x).power = s.power := rfl
@[simp] theorem setStream_vpairs (i : Nat) (x : Option StreamEntry) : (s.setStream i x).vpairs = s.vpairs := rfl
@[simp] theorem setStream_ddr (i : Nat) (x : Option StreamEntry) : (s.setStream i x).ddr = s.ddr := rfl
@[simp] theorem setStream_tenants (i : Nat) (x : Option StreamEntry) : (s.setStream i x).tenants = s.tenants := rfl
@[simp] theorem setStream_dome (i : Nat) (x : Option StreamEntry) : (s.setStream i x).dome = s.dome := rfl
@[simp] theorem setStream_fw (i : Nat) (x : Option StreamEntry) : (s.setStream i x).fw = s.fw := rfl
@[simp] theorem setStream_watch (i : Nat) (x : Option StreamEntry) : (s.setStream i x).watch = s.watch := rfl
@[simp] theorem setStream_faults (i : Nat) (x : Option StreamEntry) : (s.setStream i x).faults = s.faults := rfl
@[simp] theorem setStream_clk (i : Nat) (x : Option StreamEntry) : (s.setStream i x).clk = s.clk := rfl
@[simp] theorem setStream_bru (i : Nat) (x : Option StreamEntry) : (s.setStream i x).bru = s.bru := rfl
@[simp] theorem setStream_board (i : Nat) (x : Option StreamEntry) : (s.setStream i x).board = s.board := rfl
@[simp] theorem setStream_mbeat (i : Nat) (x : Option StreamEntry) : (s.setStream i x).mbeat = s.mbeat := rfl
@[simp] theorem setStream_seqCycle (i : Nat) (x : Option StreamEntry) : (s.setStream i x).seqCycle = s.seqCycle := rfl
@[simp] theorem setStream_pmask (i : Nat) (x : Option StreamEntry) : (s.setStream i x).pmask = s.pmask := rfl
@[simp] theorem setStream_scrubs (i : Nat) (x : Option StreamEntry) : (s.setStream i x).scrubs = s.scrubs := rfl
@[simp] theorem setStream_filling (i : Nat) (x : Option StreamEntry) : (s.setStream i x).filling = s.filling := rfl
@[simp] theorem setStream_latch (i : Nat) (x : Option StreamEntry) : (s.setStream i x).latch = s.latch := rfl
@[simp] theorem setStream_lowBuf (i : Nat) (x : Option StreamEntry) : (s.setStream i x).lowBuf = s.lowBuf := rfl
@[simp] theorem setStream_rdata (i : Nat) (x : Option StreamEntry) : (s.setStream i x).rdata = s.rdata := rfl
@[simp] theorem setStream_wire (i : Nat) (x : Option StreamEntry) : (s.setStream i x).wire = s.wire := rfl
@[simp] theorem setStream_freeCtr (i : Nat) (x : Option StreamEntry) : (s.setStream i x).freeCtr = s.freeCtr := rfl
@[simp] theorem setStream_cell (i n' : Nat) (x : Option StreamEntry) : (s.setStream i x).cell n' = s.cell n' := rfl
@[simp] theorem setStream_pan (i n' : Nat) (x : Option StreamEntry) : (s.setStream i x).pan n' = s.pan n' := rfl
@[simp] theorem setStream_win (i w' : Nat) (x : Option StreamEntry) : (s.setStream i x).win w' = s.win w' := rfl
@[simp] theorem setStream_part (i p' : Nat) (x : Option StreamEntry) : (s.setStream i x).part p' = s.part p' := rfl
@[simp] theorem setStream_fn (i f' : Nat) (x : Option StreamEntry) : (s.setStream i x).fn f' = s.fn f' := rfl
@[simp] theorem setStream_hp (i h' f' : Nat) (x : Option StreamEntry) : (s.setStream i x).hp h' f' = s.hp h' f' := rfl
@[simp] theorem setStream_sport (i i' : Nat) (x : Option StreamEntry) : (s.setStream i x).sport i' = s.sport i' := rfl
@[simp] theorem setStream_link (i i' : Nat) (x : Option StreamEntry) : (s.setStream i x).link i' = s.link i' := rfl
@[simp] theorem setStream_block (i b' : Nat) (x : Option StreamEntry) : (s.setStream i x).block b' = s.block b' := rfl
@[simp] theorem setStream_vpair (i k' : Nat) (x : Option StreamEntry) : (s.setStream i x).vpair k' = s.vpair k' := rfl
@[simp] theorem setStream_dchan (i c' : Nat) (x : Option StreamEntry) : (s.setStream i x).dchan c' = s.dchan c' := rfl
@[simp] theorem setStream_tenant (i t' : Nat) (x : Option StreamEntry) : (s.setStream i x).tenant t' = s.tenant t' := rfl
@[simp] theorem setStream_core (i c' : Nat) (x : Option StreamEntry) : (s.setStream i x).core c' = s.core c' := rfl

-- State.setSport, State.onSport.

theorem setSport_sport (i i' : Nat) (x : StreamPort) : (s.setSport i x).sport i' = if i = i' then x else s.sport i' :=
  Sp.get_set ..
@[simp] theorem setSport_sport_same (i : Nat) (x : StreamPort) : (s.setSport i x).sport i = x := Sp.get_set_same ..
@[simp] theorem onSport_eq (i : Nat) (g : StreamPort → StreamPort) : s.onSport i g = s.setSport i (g (s.sport i)) := rfl
@[simp] theorem setSport_pending (i : Nat) (x : StreamPort) : (s.setSport i x).pending = s.pending := rfl
@[simp] theorem setSport_mem (i : Nat) (x : StreamPort) : (s.setSport i x).mem = s.mem := rfl
@[simp] theorem setSport_cells (i : Nat) (x : StreamPort) : (s.setSport i x).cells = s.cells := rfl
@[simp] theorem setSport_pans (i : Nat) (x : StreamPort) : (s.setSport i x).pans = s.pans := rfl
@[simp] theorem setSport_ptw (i : Nat) (x : StreamPort) : (s.setSport i x).ptw = s.ptw := rfl
@[simp] theorem setSport_parts (i : Nat) (x : StreamPort) : (s.setSport i x).parts = s.parts := rfl
@[simp] theorem setSport_fns (i : Nat) (x : StreamPort) : (s.setSport i x).fns = s.fns := rfl
@[simp] theorem setSport_hps (i : Nat) (x : StreamPort) : (s.setSport i x).hps = s.hps := rfl
@[simp] theorem setSport_streams (i : Nat) (x : StreamPort) : (s.setSport i x).streams = s.streams := rfl
@[simp] theorem setSport_ctrls (i : Nat) (x : StreamPort) : (s.setSport i x).ctrls = s.ctrls := rfl
@[simp] theorem setSport_reflexq (i : Nat) (x : StreamPort) : (s.setSport i x).reflexq = s.reflexq := rfl
@[simp] theorem setSport_reflexCur (i : Nat) (x : StreamPort) : (s.setSport i x).reflexCur = s.reflexCur := rfl
@[simp] theorem setSport_links (i : Nat) (x : StreamPort) : (s.setSport i x).links = s.links := rfl
@[simp] theorem setSport_pair (i : Nat) (x : StreamPort) : (s.setSport i x).pair = s.pair := rfl
@[simp] theorem setSport_blocks (i : Nat) (x : StreamPort) : (s.setSport i x).blocks = s.blocks := rfl
@[simp] theorem setSport_power (i : Nat) (x : StreamPort) : (s.setSport i x).power = s.power := rfl
@[simp] theorem setSport_vpairs (i : Nat) (x : StreamPort) : (s.setSport i x).vpairs = s.vpairs := rfl
@[simp] theorem setSport_ddr (i : Nat) (x : StreamPort) : (s.setSport i x).ddr = s.ddr := rfl
@[simp] theorem setSport_tenants (i : Nat) (x : StreamPort) : (s.setSport i x).tenants = s.tenants := rfl
@[simp] theorem setSport_dome (i : Nat) (x : StreamPort) : (s.setSport i x).dome = s.dome := rfl
@[simp] theorem setSport_fw (i : Nat) (x : StreamPort) : (s.setSport i x).fw = s.fw := rfl
@[simp] theorem setSport_watch (i : Nat) (x : StreamPort) : (s.setSport i x).watch = s.watch := rfl
@[simp] theorem setSport_faults (i : Nat) (x : StreamPort) : (s.setSport i x).faults = s.faults := rfl
@[simp] theorem setSport_clk (i : Nat) (x : StreamPort) : (s.setSport i x).clk = s.clk := rfl
@[simp] theorem setSport_bru (i : Nat) (x : StreamPort) : (s.setSport i x).bru = s.bru := rfl
@[simp] theorem setSport_board (i : Nat) (x : StreamPort) : (s.setSport i x).board = s.board := rfl
@[simp] theorem setSport_mbeat (i : Nat) (x : StreamPort) : (s.setSport i x).mbeat = s.mbeat := rfl
@[simp] theorem setSport_seqCycle (i : Nat) (x : StreamPort) : (s.setSport i x).seqCycle = s.seqCycle := rfl
@[simp] theorem setSport_pmask (i : Nat) (x : StreamPort) : (s.setSport i x).pmask = s.pmask := rfl
@[simp] theorem setSport_scrubs (i : Nat) (x : StreamPort) : (s.setSport i x).scrubs = s.scrubs := rfl
@[simp] theorem setSport_filling (i : Nat) (x : StreamPort) : (s.setSport i x).filling = s.filling := rfl
@[simp] theorem setSport_latch (i : Nat) (x : StreamPort) : (s.setSport i x).latch = s.latch := rfl
@[simp] theorem setSport_lowBuf (i : Nat) (x : StreamPort) : (s.setSport i x).lowBuf = s.lowBuf := rfl
@[simp] theorem setSport_rdata (i : Nat) (x : StreamPort) : (s.setSport i x).rdata = s.rdata := rfl
@[simp] theorem setSport_wire (i : Nat) (x : StreamPort) : (s.setSport i x).wire = s.wire := rfl
@[simp] theorem setSport_freeCtr (i : Nat) (x : StreamPort) : (s.setSport i x).freeCtr = s.freeCtr := rfl
@[simp] theorem setSport_cell (i n' : Nat) (x : StreamPort) : (s.setSport i x).cell n' = s.cell n' := rfl
@[simp] theorem setSport_pan (i n' : Nat) (x : StreamPort) : (s.setSport i x).pan n' = s.pan n' := rfl
@[simp] theorem setSport_win (i w' : Nat) (x : StreamPort) : (s.setSport i x).win w' = s.win w' := rfl
@[simp] theorem setSport_part (i p' : Nat) (x : StreamPort) : (s.setSport i x).part p' = s.part p' := rfl
@[simp] theorem setSport_fn (i f' : Nat) (x : StreamPort) : (s.setSport i x).fn f' = s.fn f' := rfl
@[simp] theorem setSport_hp (i h' f' : Nat) (x : StreamPort) : (s.setSport i x).hp h' f' = s.hp h' f' := rfl
@[simp] theorem setSport_stream (i i' : Nat) (x : StreamPort) : (s.setSport i x).stream i' = s.stream i' := rfl
@[simp] theorem setSport_link (i i' : Nat) (x : StreamPort) : (s.setSport i x).link i' = s.link i' := rfl
@[simp] theorem setSport_block (i b' : Nat) (x : StreamPort) : (s.setSport i x).block b' = s.block b' := rfl
@[simp] theorem setSport_vpair (i k' : Nat) (x : StreamPort) : (s.setSport i x).vpair k' = s.vpair k' := rfl
@[simp] theorem setSport_dchan (i c' : Nat) (x : StreamPort) : (s.setSport i x).dchan c' = s.dchan c' := rfl
@[simp] theorem setSport_tenant (i t' : Nat) (x : StreamPort) : (s.setSport i x).tenant t' = s.tenant t' := rfl
@[simp] theorem setSport_core (i c' : Nat) (x : StreamPort) : (s.setSport i x).core c' = s.core c' := rfl

-- State.setLink, State.onLink.

theorem setLink_link (i i' : Nat) (x : Link) : (s.setLink i x).link i' = if i = i' then x else s.link i' :=
  Sp.get_set ..
@[simp] theorem setLink_link_same (i : Nat) (x : Link) : (s.setLink i x).link i = x := Sp.get_set_same ..
@[simp] theorem onLink_eq (i : Nat) (g : Link → Link) : s.onLink i g = s.setLink i (g (s.link i)) := rfl
@[simp] theorem setLink_pending (i : Nat) (x : Link) : (s.setLink i x).pending = s.pending := rfl
@[simp] theorem setLink_mem (i : Nat) (x : Link) : (s.setLink i x).mem = s.mem := rfl
@[simp] theorem setLink_cells (i : Nat) (x : Link) : (s.setLink i x).cells = s.cells := rfl
@[simp] theorem setLink_pans (i : Nat) (x : Link) : (s.setLink i x).pans = s.pans := rfl
@[simp] theorem setLink_ptw (i : Nat) (x : Link) : (s.setLink i x).ptw = s.ptw := rfl
@[simp] theorem setLink_parts (i : Nat) (x : Link) : (s.setLink i x).parts = s.parts := rfl
@[simp] theorem setLink_fns (i : Nat) (x : Link) : (s.setLink i x).fns = s.fns := rfl
@[simp] theorem setLink_hps (i : Nat) (x : Link) : (s.setLink i x).hps = s.hps := rfl
@[simp] theorem setLink_streams (i : Nat) (x : Link) : (s.setLink i x).streams = s.streams := rfl
@[simp] theorem setLink_ctrls (i : Nat) (x : Link) : (s.setLink i x).ctrls = s.ctrls := rfl
@[simp] theorem setLink_reflexq (i : Nat) (x : Link) : (s.setLink i x).reflexq = s.reflexq := rfl
@[simp] theorem setLink_reflexCur (i : Nat) (x : Link) : (s.setLink i x).reflexCur = s.reflexCur := rfl
@[simp] theorem setLink_sports (i : Nat) (x : Link) : (s.setLink i x).sports = s.sports := rfl
@[simp] theorem setLink_pair (i : Nat) (x : Link) : (s.setLink i x).pair = s.pair := rfl
@[simp] theorem setLink_blocks (i : Nat) (x : Link) : (s.setLink i x).blocks = s.blocks := rfl
@[simp] theorem setLink_power (i : Nat) (x : Link) : (s.setLink i x).power = s.power := rfl
@[simp] theorem setLink_vpairs (i : Nat) (x : Link) : (s.setLink i x).vpairs = s.vpairs := rfl
@[simp] theorem setLink_ddr (i : Nat) (x : Link) : (s.setLink i x).ddr = s.ddr := rfl
@[simp] theorem setLink_tenants (i : Nat) (x : Link) : (s.setLink i x).tenants = s.tenants := rfl
@[simp] theorem setLink_dome (i : Nat) (x : Link) : (s.setLink i x).dome = s.dome := rfl
@[simp] theorem setLink_fw (i : Nat) (x : Link) : (s.setLink i x).fw = s.fw := rfl
@[simp] theorem setLink_watch (i : Nat) (x : Link) : (s.setLink i x).watch = s.watch := rfl
@[simp] theorem setLink_faults (i : Nat) (x : Link) : (s.setLink i x).faults = s.faults := rfl
@[simp] theorem setLink_clk (i : Nat) (x : Link) : (s.setLink i x).clk = s.clk := rfl
@[simp] theorem setLink_bru (i : Nat) (x : Link) : (s.setLink i x).bru = s.bru := rfl
@[simp] theorem setLink_board (i : Nat) (x : Link) : (s.setLink i x).board = s.board := rfl
@[simp] theorem setLink_mbeat (i : Nat) (x : Link) : (s.setLink i x).mbeat = s.mbeat := rfl
@[simp] theorem setLink_seqCycle (i : Nat) (x : Link) : (s.setLink i x).seqCycle = s.seqCycle := rfl
@[simp] theorem setLink_pmask (i : Nat) (x : Link) : (s.setLink i x).pmask = s.pmask := rfl
@[simp] theorem setLink_scrubs (i : Nat) (x : Link) : (s.setLink i x).scrubs = s.scrubs := rfl
@[simp] theorem setLink_filling (i : Nat) (x : Link) : (s.setLink i x).filling = s.filling := rfl
@[simp] theorem setLink_latch (i : Nat) (x : Link) : (s.setLink i x).latch = s.latch := rfl
@[simp] theorem setLink_lowBuf (i : Nat) (x : Link) : (s.setLink i x).lowBuf = s.lowBuf := rfl
@[simp] theorem setLink_rdata (i : Nat) (x : Link) : (s.setLink i x).rdata = s.rdata := rfl
@[simp] theorem setLink_wire (i : Nat) (x : Link) : (s.setLink i x).wire = s.wire := rfl
@[simp] theorem setLink_freeCtr (i : Nat) (x : Link) : (s.setLink i x).freeCtr = s.freeCtr := rfl
@[simp] theorem setLink_cell (i n' : Nat) (x : Link) : (s.setLink i x).cell n' = s.cell n' := rfl
@[simp] theorem setLink_pan (i n' : Nat) (x : Link) : (s.setLink i x).pan n' = s.pan n' := rfl
@[simp] theorem setLink_win (i w' : Nat) (x : Link) : (s.setLink i x).win w' = s.win w' := rfl
@[simp] theorem setLink_part (i p' : Nat) (x : Link) : (s.setLink i x).part p' = s.part p' := rfl
@[simp] theorem setLink_fn (i f' : Nat) (x : Link) : (s.setLink i x).fn f' = s.fn f' := rfl
@[simp] theorem setLink_hp (i h' f' : Nat) (x : Link) : (s.setLink i x).hp h' f' = s.hp h' f' := rfl
@[simp] theorem setLink_stream (i i' : Nat) (x : Link) : (s.setLink i x).stream i' = s.stream i' := rfl
@[simp] theorem setLink_sport (i i' : Nat) (x : Link) : (s.setLink i x).sport i' = s.sport i' := rfl
@[simp] theorem setLink_block (i b' : Nat) (x : Link) : (s.setLink i x).block b' = s.block b' := rfl
@[simp] theorem setLink_vpair (i k' : Nat) (x : Link) : (s.setLink i x).vpair k' = s.vpair k' := rfl
@[simp] theorem setLink_dchan (i c' : Nat) (x : Link) : (s.setLink i x).dchan c' = s.dchan c' := rfl
@[simp] theorem setLink_tenant (i t' : Nat) (x : Link) : (s.setLink i x).tenant t' = s.tenant t' := rfl
@[simp] theorem setLink_core (i c' : Nat) (x : Link) : (s.setLink i x).core c' = s.core c' := rfl

-- State.setBlock, State.onBlock.

theorem setBlock_block (b b' : Nat) (x : Block) : (s.setBlock b x).block b' = if b = b' then x else s.block b' :=
  Sp.get_set ..
@[simp] theorem setBlock_block_same (b : Nat) (x : Block) : (s.setBlock b x).block b = x := Sp.get_set_same ..
@[simp] theorem onBlock_eq (b : Nat) (g : Block → Block) : s.onBlock b g = s.setBlock b (g (s.block b)) := rfl
@[simp] theorem setBlock_pending (b : Nat) (x : Block) : (s.setBlock b x).pending = s.pending := rfl
@[simp] theorem setBlock_mem (b : Nat) (x : Block) : (s.setBlock b x).mem = s.mem := rfl
@[simp] theorem setBlock_cells (b : Nat) (x : Block) : (s.setBlock b x).cells = s.cells := rfl
@[simp] theorem setBlock_pans (b : Nat) (x : Block) : (s.setBlock b x).pans = s.pans := rfl
@[simp] theorem setBlock_ptw (b : Nat) (x : Block) : (s.setBlock b x).ptw = s.ptw := rfl
@[simp] theorem setBlock_parts (b : Nat) (x : Block) : (s.setBlock b x).parts = s.parts := rfl
@[simp] theorem setBlock_fns (b : Nat) (x : Block) : (s.setBlock b x).fns = s.fns := rfl
@[simp] theorem setBlock_hps (b : Nat) (x : Block) : (s.setBlock b x).hps = s.hps := rfl
@[simp] theorem setBlock_streams (b : Nat) (x : Block) : (s.setBlock b x).streams = s.streams := rfl
@[simp] theorem setBlock_ctrls (b : Nat) (x : Block) : (s.setBlock b x).ctrls = s.ctrls := rfl
@[simp] theorem setBlock_reflexq (b : Nat) (x : Block) : (s.setBlock b x).reflexq = s.reflexq := rfl
@[simp] theorem setBlock_reflexCur (b : Nat) (x : Block) : (s.setBlock b x).reflexCur = s.reflexCur := rfl
@[simp] theorem setBlock_sports (b : Nat) (x : Block) : (s.setBlock b x).sports = s.sports := rfl
@[simp] theorem setBlock_links (b : Nat) (x : Block) : (s.setBlock b x).links = s.links := rfl
@[simp] theorem setBlock_pair (b : Nat) (x : Block) : (s.setBlock b x).pair = s.pair := rfl
@[simp] theorem setBlock_power (b : Nat) (x : Block) : (s.setBlock b x).power = s.power := rfl
@[simp] theorem setBlock_vpairs (b : Nat) (x : Block) : (s.setBlock b x).vpairs = s.vpairs := rfl
@[simp] theorem setBlock_ddr (b : Nat) (x : Block) : (s.setBlock b x).ddr = s.ddr := rfl
@[simp] theorem setBlock_tenants (b : Nat) (x : Block) : (s.setBlock b x).tenants = s.tenants := rfl
@[simp] theorem setBlock_dome (b : Nat) (x : Block) : (s.setBlock b x).dome = s.dome := rfl
@[simp] theorem setBlock_fw (b : Nat) (x : Block) : (s.setBlock b x).fw = s.fw := rfl
@[simp] theorem setBlock_watch (b : Nat) (x : Block) : (s.setBlock b x).watch = s.watch := rfl
@[simp] theorem setBlock_faults (b : Nat) (x : Block) : (s.setBlock b x).faults = s.faults := rfl
@[simp] theorem setBlock_clk (b : Nat) (x : Block) : (s.setBlock b x).clk = s.clk := rfl
@[simp] theorem setBlock_bru (b : Nat) (x : Block) : (s.setBlock b x).bru = s.bru := rfl
@[simp] theorem setBlock_board (b : Nat) (x : Block) : (s.setBlock b x).board = s.board := rfl
@[simp] theorem setBlock_mbeat (b : Nat) (x : Block) : (s.setBlock b x).mbeat = s.mbeat := rfl
@[simp] theorem setBlock_seqCycle (b : Nat) (x : Block) : (s.setBlock b x).seqCycle = s.seqCycle := rfl
@[simp] theorem setBlock_pmask (b : Nat) (x : Block) : (s.setBlock b x).pmask = s.pmask := rfl
@[simp] theorem setBlock_scrubs (b : Nat) (x : Block) : (s.setBlock b x).scrubs = s.scrubs := rfl
@[simp] theorem setBlock_filling (b : Nat) (x : Block) : (s.setBlock b x).filling = s.filling := rfl
@[simp] theorem setBlock_latch (b : Nat) (x : Block) : (s.setBlock b x).latch = s.latch := rfl
@[simp] theorem setBlock_lowBuf (b : Nat) (x : Block) : (s.setBlock b x).lowBuf = s.lowBuf := rfl
@[simp] theorem setBlock_rdata (b : Nat) (x : Block) : (s.setBlock b x).rdata = s.rdata := rfl
@[simp] theorem setBlock_wire (b : Nat) (x : Block) : (s.setBlock b x).wire = s.wire := rfl
@[simp] theorem setBlock_freeCtr (b : Nat) (x : Block) : (s.setBlock b x).freeCtr = s.freeCtr := rfl
@[simp] theorem setBlock_cell (b n' : Nat) (x : Block) : (s.setBlock b x).cell n' = s.cell n' := rfl
@[simp] theorem setBlock_pan (b n' : Nat) (x : Block) : (s.setBlock b x).pan n' = s.pan n' := rfl
@[simp] theorem setBlock_win (b w' : Nat) (x : Block) : (s.setBlock b x).win w' = s.win w' := rfl
@[simp] theorem setBlock_part (b p' : Nat) (x : Block) : (s.setBlock b x).part p' = s.part p' := rfl
@[simp] theorem setBlock_fn (b f' : Nat) (x : Block) : (s.setBlock b x).fn f' = s.fn f' := rfl
@[simp] theorem setBlock_hp (b h' f' : Nat) (x : Block) : (s.setBlock b x).hp h' f' = s.hp h' f' := rfl
@[simp] theorem setBlock_stream (b i' : Nat) (x : Block) : (s.setBlock b x).stream i' = s.stream i' := rfl
@[simp] theorem setBlock_sport (b i' : Nat) (x : Block) : (s.setBlock b x).sport i' = s.sport i' := rfl
@[simp] theorem setBlock_link (b i' : Nat) (x : Block) : (s.setBlock b x).link i' = s.link i' := rfl
@[simp] theorem setBlock_vpair (b k' : Nat) (x : Block) : (s.setBlock b x).vpair k' = s.vpair k' := rfl
@[simp] theorem setBlock_dchan (b c' : Nat) (x : Block) : (s.setBlock b x).dchan c' = s.dchan c' := rfl
@[simp] theorem setBlock_tenant (b t' : Nat) (x : Block) : (s.setBlock b x).tenant t' = s.tenant t' := rfl
@[simp] theorem setBlock_core (b c' : Nat) (x : Block) : (s.setBlock b x).core c' = s.core c' := rfl

-- State.setVpair, State.onVpair.

theorem setVpair_vpair (k k' : Nat) (x : VidPair) : (s.setVpair k x).vpair k' = if k = k' then x else s.vpair k' :=
  Sp.get_set ..
@[simp] theorem setVpair_vpair_same (k : Nat) (x : VidPair) : (s.setVpair k x).vpair k = x := Sp.get_set_same ..
@[simp] theorem onVpair_eq (k : Nat) (g : VidPair → VidPair) : s.onVpair k g = s.setVpair k (g (s.vpair k)) := rfl
@[simp] theorem setVpair_pending (k : Nat) (x : VidPair) : (s.setVpair k x).pending = s.pending := rfl
@[simp] theorem setVpair_mem (k : Nat) (x : VidPair) : (s.setVpair k x).mem = s.mem := rfl
@[simp] theorem setVpair_cells (k : Nat) (x : VidPair) : (s.setVpair k x).cells = s.cells := rfl
@[simp] theorem setVpair_pans (k : Nat) (x : VidPair) : (s.setVpair k x).pans = s.pans := rfl
@[simp] theorem setVpair_ptw (k : Nat) (x : VidPair) : (s.setVpair k x).ptw = s.ptw := rfl
@[simp] theorem setVpair_parts (k : Nat) (x : VidPair) : (s.setVpair k x).parts = s.parts := rfl
@[simp] theorem setVpair_fns (k : Nat) (x : VidPair) : (s.setVpair k x).fns = s.fns := rfl
@[simp] theorem setVpair_hps (k : Nat) (x : VidPair) : (s.setVpair k x).hps = s.hps := rfl
@[simp] theorem setVpair_streams (k : Nat) (x : VidPair) : (s.setVpair k x).streams = s.streams := rfl
@[simp] theorem setVpair_ctrls (k : Nat) (x : VidPair) : (s.setVpair k x).ctrls = s.ctrls := rfl
@[simp] theorem setVpair_reflexq (k : Nat) (x : VidPair) : (s.setVpair k x).reflexq = s.reflexq := rfl
@[simp] theorem setVpair_reflexCur (k : Nat) (x : VidPair) : (s.setVpair k x).reflexCur = s.reflexCur := rfl
@[simp] theorem setVpair_sports (k : Nat) (x : VidPair) : (s.setVpair k x).sports = s.sports := rfl
@[simp] theorem setVpair_links (k : Nat) (x : VidPair) : (s.setVpair k x).links = s.links := rfl
@[simp] theorem setVpair_pair (k : Nat) (x : VidPair) : (s.setVpair k x).pair = s.pair := rfl
@[simp] theorem setVpair_blocks (k : Nat) (x : VidPair) : (s.setVpair k x).blocks = s.blocks := rfl
@[simp] theorem setVpair_power (k : Nat) (x : VidPair) : (s.setVpair k x).power = s.power := rfl
@[simp] theorem setVpair_ddr (k : Nat) (x : VidPair) : (s.setVpair k x).ddr = s.ddr := rfl
@[simp] theorem setVpair_tenants (k : Nat) (x : VidPair) : (s.setVpair k x).tenants = s.tenants := rfl
@[simp] theorem setVpair_dome (k : Nat) (x : VidPair) : (s.setVpair k x).dome = s.dome := rfl
@[simp] theorem setVpair_fw (k : Nat) (x : VidPair) : (s.setVpair k x).fw = s.fw := rfl
@[simp] theorem setVpair_watch (k : Nat) (x : VidPair) : (s.setVpair k x).watch = s.watch := rfl
@[simp] theorem setVpair_faults (k : Nat) (x : VidPair) : (s.setVpair k x).faults = s.faults := rfl
@[simp] theorem setVpair_clk (k : Nat) (x : VidPair) : (s.setVpair k x).clk = s.clk := rfl
@[simp] theorem setVpair_bru (k : Nat) (x : VidPair) : (s.setVpair k x).bru = s.bru := rfl
@[simp] theorem setVpair_board (k : Nat) (x : VidPair) : (s.setVpair k x).board = s.board := rfl
@[simp] theorem setVpair_mbeat (k : Nat) (x : VidPair) : (s.setVpair k x).mbeat = s.mbeat := rfl
@[simp] theorem setVpair_seqCycle (k : Nat) (x : VidPair) : (s.setVpair k x).seqCycle = s.seqCycle := rfl
@[simp] theorem setVpair_pmask (k : Nat) (x : VidPair) : (s.setVpair k x).pmask = s.pmask := rfl
@[simp] theorem setVpair_scrubs (k : Nat) (x : VidPair) : (s.setVpair k x).scrubs = s.scrubs := rfl
@[simp] theorem setVpair_filling (k : Nat) (x : VidPair) : (s.setVpair k x).filling = s.filling := rfl
@[simp] theorem setVpair_latch (k : Nat) (x : VidPair) : (s.setVpair k x).latch = s.latch := rfl
@[simp] theorem setVpair_lowBuf (k : Nat) (x : VidPair) : (s.setVpair k x).lowBuf = s.lowBuf := rfl
@[simp] theorem setVpair_rdata (k : Nat) (x : VidPair) : (s.setVpair k x).rdata = s.rdata := rfl
@[simp] theorem setVpair_wire (k : Nat) (x : VidPair) : (s.setVpair k x).wire = s.wire := rfl
@[simp] theorem setVpair_freeCtr (k : Nat) (x : VidPair) : (s.setVpair k x).freeCtr = s.freeCtr := rfl
@[simp] theorem setVpair_cell (k n' : Nat) (x : VidPair) : (s.setVpair k x).cell n' = s.cell n' := rfl
@[simp] theorem setVpair_pan (k n' : Nat) (x : VidPair) : (s.setVpair k x).pan n' = s.pan n' := rfl
@[simp] theorem setVpair_win (k w' : Nat) (x : VidPair) : (s.setVpair k x).win w' = s.win w' := rfl
@[simp] theorem setVpair_part (k p' : Nat) (x : VidPair) : (s.setVpair k x).part p' = s.part p' := rfl
@[simp] theorem setVpair_fn (k f' : Nat) (x : VidPair) : (s.setVpair k x).fn f' = s.fn f' := rfl
@[simp] theorem setVpair_hp (k h' f' : Nat) (x : VidPair) : (s.setVpair k x).hp h' f' = s.hp h' f' := rfl
@[simp] theorem setVpair_stream (k i' : Nat) (x : VidPair) : (s.setVpair k x).stream i' = s.stream i' := rfl
@[simp] theorem setVpair_sport (k i' : Nat) (x : VidPair) : (s.setVpair k x).sport i' = s.sport i' := rfl
@[simp] theorem setVpair_link (k i' : Nat) (x : VidPair) : (s.setVpair k x).link i' = s.link i' := rfl
@[simp] theorem setVpair_block (k b' : Nat) (x : VidPair) : (s.setVpair k x).block b' = s.block b' := rfl
@[simp] theorem setVpair_dchan (k c' : Nat) (x : VidPair) : (s.setVpair k x).dchan c' = s.dchan c' := rfl
@[simp] theorem setVpair_tenant (k t' : Nat) (x : VidPair) : (s.setVpair k x).tenant t' = s.tenant t' := rfl
@[simp] theorem setVpair_core (k c' : Nat) (x : VidPair) : (s.setVpair k x).core c' = s.core c' := rfl

-- State.setDchan, State.onDchan.

theorem setDchan_dchan (c c' : Nat) (x : DdrChan) : (s.setDchan c x).dchan c' = if c = c' then x else s.dchan c' :=
  Sp.get_set ..
@[simp] theorem setDchan_dchan_same (c : Nat) (x : DdrChan) : (s.setDchan c x).dchan c = x := Sp.get_set_same ..
@[simp] theorem onDchan_eq (c : Nat) (g : DdrChan → DdrChan) : s.onDchan c g = s.setDchan c (g (s.dchan c)) := rfl
@[simp] theorem setDchan_pending (c : Nat) (x : DdrChan) : (s.setDchan c x).pending = s.pending := rfl
@[simp] theorem setDchan_mem (c : Nat) (x : DdrChan) : (s.setDchan c x).mem = s.mem := rfl
@[simp] theorem setDchan_cells (c : Nat) (x : DdrChan) : (s.setDchan c x).cells = s.cells := rfl
@[simp] theorem setDchan_pans (c : Nat) (x : DdrChan) : (s.setDchan c x).pans = s.pans := rfl
@[simp] theorem setDchan_ptw (c : Nat) (x : DdrChan) : (s.setDchan c x).ptw = s.ptw := rfl
@[simp] theorem setDchan_parts (c : Nat) (x : DdrChan) : (s.setDchan c x).parts = s.parts := rfl
@[simp] theorem setDchan_fns (c : Nat) (x : DdrChan) : (s.setDchan c x).fns = s.fns := rfl
@[simp] theorem setDchan_hps (c : Nat) (x : DdrChan) : (s.setDchan c x).hps = s.hps := rfl
@[simp] theorem setDchan_streams (c : Nat) (x : DdrChan) : (s.setDchan c x).streams = s.streams := rfl
@[simp] theorem setDchan_ctrls (c : Nat) (x : DdrChan) : (s.setDchan c x).ctrls = s.ctrls := rfl
@[simp] theorem setDchan_reflexq (c : Nat) (x : DdrChan) : (s.setDchan c x).reflexq = s.reflexq := rfl
@[simp] theorem setDchan_reflexCur (c : Nat) (x : DdrChan) : (s.setDchan c x).reflexCur = s.reflexCur := rfl
@[simp] theorem setDchan_sports (c : Nat) (x : DdrChan) : (s.setDchan c x).sports = s.sports := rfl
@[simp] theorem setDchan_links (c : Nat) (x : DdrChan) : (s.setDchan c x).links = s.links := rfl
@[simp] theorem setDchan_pair (c : Nat) (x : DdrChan) : (s.setDchan c x).pair = s.pair := rfl
@[simp] theorem setDchan_blocks (c : Nat) (x : DdrChan) : (s.setDchan c x).blocks = s.blocks := rfl
@[simp] theorem setDchan_power (c : Nat) (x : DdrChan) : (s.setDchan c x).power = s.power := rfl
@[simp] theorem setDchan_vpairs (c : Nat) (x : DdrChan) : (s.setDchan c x).vpairs = s.vpairs := rfl
@[simp] theorem setDchan_tenants (c : Nat) (x : DdrChan) : (s.setDchan c x).tenants = s.tenants := rfl
@[simp] theorem setDchan_dome (c : Nat) (x : DdrChan) : (s.setDchan c x).dome = s.dome := rfl
@[simp] theorem setDchan_fw (c : Nat) (x : DdrChan) : (s.setDchan c x).fw = s.fw := rfl
@[simp] theorem setDchan_watch (c : Nat) (x : DdrChan) : (s.setDchan c x).watch = s.watch := rfl
@[simp] theorem setDchan_faults (c : Nat) (x : DdrChan) : (s.setDchan c x).faults = s.faults := rfl
@[simp] theorem setDchan_clk (c : Nat) (x : DdrChan) : (s.setDchan c x).clk = s.clk := rfl
@[simp] theorem setDchan_bru (c : Nat) (x : DdrChan) : (s.setDchan c x).bru = s.bru := rfl
@[simp] theorem setDchan_board (c : Nat) (x : DdrChan) : (s.setDchan c x).board = s.board := rfl
@[simp] theorem setDchan_mbeat (c : Nat) (x : DdrChan) : (s.setDchan c x).mbeat = s.mbeat := rfl
@[simp] theorem setDchan_seqCycle (c : Nat) (x : DdrChan) : (s.setDchan c x).seqCycle = s.seqCycle := rfl
@[simp] theorem setDchan_pmask (c : Nat) (x : DdrChan) : (s.setDchan c x).pmask = s.pmask := rfl
@[simp] theorem setDchan_scrubs (c : Nat) (x : DdrChan) : (s.setDchan c x).scrubs = s.scrubs := rfl
@[simp] theorem setDchan_filling (c : Nat) (x : DdrChan) : (s.setDchan c x).filling = s.filling := rfl
@[simp] theorem setDchan_latch (c : Nat) (x : DdrChan) : (s.setDchan c x).latch = s.latch := rfl
@[simp] theorem setDchan_lowBuf (c : Nat) (x : DdrChan) : (s.setDchan c x).lowBuf = s.lowBuf := rfl
@[simp] theorem setDchan_rdata (c : Nat) (x : DdrChan) : (s.setDchan c x).rdata = s.rdata := rfl
@[simp] theorem setDchan_wire (c : Nat) (x : DdrChan) : (s.setDchan c x).wire = s.wire := rfl
@[simp] theorem setDchan_freeCtr (c : Nat) (x : DdrChan) : (s.setDchan c x).freeCtr = s.freeCtr := rfl
@[simp] theorem setDchan_cell (c n' : Nat) (x : DdrChan) : (s.setDchan c x).cell n' = s.cell n' := rfl
@[simp] theorem setDchan_pan (c n' : Nat) (x : DdrChan) : (s.setDchan c x).pan n' = s.pan n' := rfl
@[simp] theorem setDchan_win (c w' : Nat) (x : DdrChan) : (s.setDchan c x).win w' = s.win w' := rfl
@[simp] theorem setDchan_part (c p' : Nat) (x : DdrChan) : (s.setDchan c x).part p' = s.part p' := rfl
@[simp] theorem setDchan_fn (c f' : Nat) (x : DdrChan) : (s.setDchan c x).fn f' = s.fn f' := rfl
@[simp] theorem setDchan_hp (c h' f' : Nat) (x : DdrChan) : (s.setDchan c x).hp h' f' = s.hp h' f' := rfl
@[simp] theorem setDchan_stream (c i' : Nat) (x : DdrChan) : (s.setDchan c x).stream i' = s.stream i' := rfl
@[simp] theorem setDchan_sport (c i' : Nat) (x : DdrChan) : (s.setDchan c x).sport i' = s.sport i' := rfl
@[simp] theorem setDchan_link (c i' : Nat) (x : DdrChan) : (s.setDchan c x).link i' = s.link i' := rfl
@[simp] theorem setDchan_block (c b' : Nat) (x : DdrChan) : (s.setDchan c x).block b' = s.block b' := rfl
@[simp] theorem setDchan_vpair (c k' : Nat) (x : DdrChan) : (s.setDchan c x).vpair k' = s.vpair k' := rfl
@[simp] theorem setDchan_tenant (c t' : Nat) (x : DdrChan) : (s.setDchan c x).tenant t' = s.tenant t' := rfl
@[simp] theorem setDchan_core (c c' : Nat) (x : DdrChan) : (s.setDchan c x).core c' = s.core c' := rfl

-- State.setTenant, State.onTenant.

theorem setTenant_tenant (t t' : Nat) (x : Tenant) : (s.setTenant t x).tenant t' = if t = t' then x else s.tenant t' :=
  Sp.get_set ..
@[simp] theorem setTenant_tenant_same (t : Nat) (x : Tenant) : (s.setTenant t x).tenant t = x := Sp.get_set_same ..
@[simp] theorem onTenant_eq (t : Nat) (g : Tenant → Tenant) : s.onTenant t g = s.setTenant t (g (s.tenant t)) := rfl
@[simp] theorem setTenant_pending (t : Nat) (x : Tenant) : (s.setTenant t x).pending = s.pending := rfl
@[simp] theorem setTenant_mem (t : Nat) (x : Tenant) : (s.setTenant t x).mem = s.mem := rfl
@[simp] theorem setTenant_cells (t : Nat) (x : Tenant) : (s.setTenant t x).cells = s.cells := rfl
@[simp] theorem setTenant_pans (t : Nat) (x : Tenant) : (s.setTenant t x).pans = s.pans := rfl
@[simp] theorem setTenant_ptw (t : Nat) (x : Tenant) : (s.setTenant t x).ptw = s.ptw := rfl
@[simp] theorem setTenant_parts (t : Nat) (x : Tenant) : (s.setTenant t x).parts = s.parts := rfl
@[simp] theorem setTenant_fns (t : Nat) (x : Tenant) : (s.setTenant t x).fns = s.fns := rfl
@[simp] theorem setTenant_hps (t : Nat) (x : Tenant) : (s.setTenant t x).hps = s.hps := rfl
@[simp] theorem setTenant_streams (t : Nat) (x : Tenant) : (s.setTenant t x).streams = s.streams := rfl
@[simp] theorem setTenant_ctrls (t : Nat) (x : Tenant) : (s.setTenant t x).ctrls = s.ctrls := rfl
@[simp] theorem setTenant_reflexq (t : Nat) (x : Tenant) : (s.setTenant t x).reflexq = s.reflexq := rfl
@[simp] theorem setTenant_reflexCur (t : Nat) (x : Tenant) : (s.setTenant t x).reflexCur = s.reflexCur := rfl
@[simp] theorem setTenant_sports (t : Nat) (x : Tenant) : (s.setTenant t x).sports = s.sports := rfl
@[simp] theorem setTenant_links (t : Nat) (x : Tenant) : (s.setTenant t x).links = s.links := rfl
@[simp] theorem setTenant_pair (t : Nat) (x : Tenant) : (s.setTenant t x).pair = s.pair := rfl
@[simp] theorem setTenant_blocks (t : Nat) (x : Tenant) : (s.setTenant t x).blocks = s.blocks := rfl
@[simp] theorem setTenant_power (t : Nat) (x : Tenant) : (s.setTenant t x).power = s.power := rfl
@[simp] theorem setTenant_vpairs (t : Nat) (x : Tenant) : (s.setTenant t x).vpairs = s.vpairs := rfl
@[simp] theorem setTenant_ddr (t : Nat) (x : Tenant) : (s.setTenant t x).ddr = s.ddr := rfl
@[simp] theorem setTenant_dome (t : Nat) (x : Tenant) : (s.setTenant t x).dome = s.dome := rfl
@[simp] theorem setTenant_fw (t : Nat) (x : Tenant) : (s.setTenant t x).fw = s.fw := rfl
@[simp] theorem setTenant_watch (t : Nat) (x : Tenant) : (s.setTenant t x).watch = s.watch := rfl
@[simp] theorem setTenant_faults (t : Nat) (x : Tenant) : (s.setTenant t x).faults = s.faults := rfl
@[simp] theorem setTenant_clk (t : Nat) (x : Tenant) : (s.setTenant t x).clk = s.clk := rfl
@[simp] theorem setTenant_bru (t : Nat) (x : Tenant) : (s.setTenant t x).bru = s.bru := rfl
@[simp] theorem setTenant_board (t : Nat) (x : Tenant) : (s.setTenant t x).board = s.board := rfl
@[simp] theorem setTenant_mbeat (t : Nat) (x : Tenant) : (s.setTenant t x).mbeat = s.mbeat := rfl
@[simp] theorem setTenant_seqCycle (t : Nat) (x : Tenant) : (s.setTenant t x).seqCycle = s.seqCycle := rfl
@[simp] theorem setTenant_pmask (t : Nat) (x : Tenant) : (s.setTenant t x).pmask = s.pmask := rfl
@[simp] theorem setTenant_scrubs (t : Nat) (x : Tenant) : (s.setTenant t x).scrubs = s.scrubs := rfl
@[simp] theorem setTenant_filling (t : Nat) (x : Tenant) : (s.setTenant t x).filling = s.filling := rfl
@[simp] theorem setTenant_latch (t : Nat) (x : Tenant) : (s.setTenant t x).latch = s.latch := rfl
@[simp] theorem setTenant_lowBuf (t : Nat) (x : Tenant) : (s.setTenant t x).lowBuf = s.lowBuf := rfl
@[simp] theorem setTenant_rdata (t : Nat) (x : Tenant) : (s.setTenant t x).rdata = s.rdata := rfl
@[simp] theorem setTenant_wire (t : Nat) (x : Tenant) : (s.setTenant t x).wire = s.wire := rfl
@[simp] theorem setTenant_freeCtr (t : Nat) (x : Tenant) : (s.setTenant t x).freeCtr = s.freeCtr := rfl
@[simp] theorem setTenant_cell (t n' : Nat) (x : Tenant) : (s.setTenant t x).cell n' = s.cell n' := rfl
@[simp] theorem setTenant_pan (t n' : Nat) (x : Tenant) : (s.setTenant t x).pan n' = s.pan n' := rfl
@[simp] theorem setTenant_win (t w' : Nat) (x : Tenant) : (s.setTenant t x).win w' = s.win w' := rfl
@[simp] theorem setTenant_part (t p' : Nat) (x : Tenant) : (s.setTenant t x).part p' = s.part p' := rfl
@[simp] theorem setTenant_fn (t f' : Nat) (x : Tenant) : (s.setTenant t x).fn f' = s.fn f' := rfl
@[simp] theorem setTenant_hp (t h' f' : Nat) (x : Tenant) : (s.setTenant t x).hp h' f' = s.hp h' f' := rfl
@[simp] theorem setTenant_stream (t i' : Nat) (x : Tenant) : (s.setTenant t x).stream i' = s.stream i' := rfl
@[simp] theorem setTenant_sport (t i' : Nat) (x : Tenant) : (s.setTenant t x).sport i' = s.sport i' := rfl
@[simp] theorem setTenant_link (t i' : Nat) (x : Tenant) : (s.setTenant t x).link i' = s.link i' := rfl
@[simp] theorem setTenant_block (t b' : Nat) (x : Tenant) : (s.setTenant t x).block b' = s.block b' := rfl
@[simp] theorem setTenant_vpair (t k' : Nat) (x : Tenant) : (s.setTenant t x).vpair k' = s.vpair k' := rfl
@[simp] theorem setTenant_dchan (t c' : Nat) (x : Tenant) : (s.setTenant t x).dchan c' = s.dchan c' := rfl
@[simp] theorem setTenant_core (t c' : Nat) (x : Tenant) : (s.setTenant t x).core c' = s.core c' := rfl

-- State.setCore, State.onCore.

theorem setCore_core (c c' : Nat) (x : Core) : (s.setCore c x).core c' = if c = c' then x else s.core c' :=
  Sp.get_set ..
@[simp] theorem setCore_core_same (c : Nat) (x : Core) : (s.setCore c x).core c = x := Sp.get_set_same ..
@[simp] theorem onCore_eq (c : Nat) (g : Core → Core) : s.onCore c g = s.setCore c (g (s.core c)) := rfl
@[simp] theorem setCore_pending (c : Nat) (x : Core) : (s.setCore c x).pending = s.pending := rfl
@[simp] theorem setCore_mem (c : Nat) (x : Core) : (s.setCore c x).mem = s.mem := rfl
@[simp] theorem setCore_cells (c : Nat) (x : Core) : (s.setCore c x).cells = s.cells := rfl
@[simp] theorem setCore_pans (c : Nat) (x : Core) : (s.setCore c x).pans = s.pans := rfl
@[simp] theorem setCore_ptw (c : Nat) (x : Core) : (s.setCore c x).ptw = s.ptw := rfl
@[simp] theorem setCore_parts (c : Nat) (x : Core) : (s.setCore c x).parts = s.parts := rfl
@[simp] theorem setCore_fns (c : Nat) (x : Core) : (s.setCore c x).fns = s.fns := rfl
@[simp] theorem setCore_hps (c : Nat) (x : Core) : (s.setCore c x).hps = s.hps := rfl
@[simp] theorem setCore_streams (c : Nat) (x : Core) : (s.setCore c x).streams = s.streams := rfl
@[simp] theorem setCore_ctrls (c : Nat) (x : Core) : (s.setCore c x).ctrls = s.ctrls := rfl
@[simp] theorem setCore_reflexq (c : Nat) (x : Core) : (s.setCore c x).reflexq = s.reflexq := rfl
@[simp] theorem setCore_reflexCur (c : Nat) (x : Core) : (s.setCore c x).reflexCur = s.reflexCur := rfl
@[simp] theorem setCore_sports (c : Nat) (x : Core) : (s.setCore c x).sports = s.sports := rfl
@[simp] theorem setCore_links (c : Nat) (x : Core) : (s.setCore c x).links = s.links := rfl
@[simp] theorem setCore_pair (c : Nat) (x : Core) : (s.setCore c x).pair = s.pair := rfl
@[simp] theorem setCore_blocks (c : Nat) (x : Core) : (s.setCore c x).blocks = s.blocks := rfl
@[simp] theorem setCore_power (c : Nat) (x : Core) : (s.setCore c x).power = s.power := rfl
@[simp] theorem setCore_vpairs (c : Nat) (x : Core) : (s.setCore c x).vpairs = s.vpairs := rfl
@[simp] theorem setCore_ddr (c : Nat) (x : Core) : (s.setCore c x).ddr = s.ddr := rfl
@[simp] theorem setCore_tenants (c : Nat) (x : Core) : (s.setCore c x).tenants = s.tenants := rfl
@[simp] theorem setCore_fw (c : Nat) (x : Core) : (s.setCore c x).fw = s.fw := rfl
@[simp] theorem setCore_watch (c : Nat) (x : Core) : (s.setCore c x).watch = s.watch := rfl
@[simp] theorem setCore_faults (c : Nat) (x : Core) : (s.setCore c x).faults = s.faults := rfl
@[simp] theorem setCore_clk (c : Nat) (x : Core) : (s.setCore c x).clk = s.clk := rfl
@[simp] theorem setCore_bru (c : Nat) (x : Core) : (s.setCore c x).bru = s.bru := rfl
@[simp] theorem setCore_board (c : Nat) (x : Core) : (s.setCore c x).board = s.board := rfl
@[simp] theorem setCore_mbeat (c : Nat) (x : Core) : (s.setCore c x).mbeat = s.mbeat := rfl
@[simp] theorem setCore_seqCycle (c : Nat) (x : Core) : (s.setCore c x).seqCycle = s.seqCycle := rfl
@[simp] theorem setCore_pmask (c : Nat) (x : Core) : (s.setCore c x).pmask = s.pmask := rfl
@[simp] theorem setCore_scrubs (c : Nat) (x : Core) : (s.setCore c x).scrubs = s.scrubs := rfl
@[simp] theorem setCore_filling (c : Nat) (x : Core) : (s.setCore c x).filling = s.filling := rfl
@[simp] theorem setCore_latch (c : Nat) (x : Core) : (s.setCore c x).latch = s.latch := rfl
@[simp] theorem setCore_lowBuf (c : Nat) (x : Core) : (s.setCore c x).lowBuf = s.lowBuf := rfl
@[simp] theorem setCore_rdata (c : Nat) (x : Core) : (s.setCore c x).rdata = s.rdata := rfl
@[simp] theorem setCore_wire (c : Nat) (x : Core) : (s.setCore c x).wire = s.wire := rfl
@[simp] theorem setCore_freeCtr (c : Nat) (x : Core) : (s.setCore c x).freeCtr = s.freeCtr := rfl
@[simp] theorem setCore_cell (c n' : Nat) (x : Core) : (s.setCore c x).cell n' = s.cell n' := rfl
@[simp] theorem setCore_pan (c n' : Nat) (x : Core) : (s.setCore c x).pan n' = s.pan n' := rfl
@[simp] theorem setCore_win (c w' : Nat) (x : Core) : (s.setCore c x).win w' = s.win w' := rfl
@[simp] theorem setCore_part (c p' : Nat) (x : Core) : (s.setCore c x).part p' = s.part p' := rfl
@[simp] theorem setCore_fn (c f' : Nat) (x : Core) : (s.setCore c x).fn f' = s.fn f' := rfl
@[simp] theorem setCore_hp (c h' f' : Nat) (x : Core) : (s.setCore c x).hp h' f' = s.hp h' f' := rfl
@[simp] theorem setCore_stream (c i' : Nat) (x : Core) : (s.setCore c x).stream i' = s.stream i' := rfl
@[simp] theorem setCore_sport (c i' : Nat) (x : Core) : (s.setCore c x).sport i' = s.sport i' := rfl
@[simp] theorem setCore_link (c i' : Nat) (x : Core) : (s.setCore c x).link i' = s.link i' := rfl
@[simp] theorem setCore_block (c b' : Nat) (x : Core) : (s.setCore c x).block b' = s.block b' := rfl
@[simp] theorem setCore_vpair (c k' : Nat) (x : Core) : (s.setCore c x).vpair k' = s.vpair k' := rfl
@[simp] theorem setCore_dchan (c c' : Nat) (x : Core) : (s.setCore c x).dchan c' = s.dchan c' := rfl
@[simp] theorem setCore_tenant (c t' : Nat) (x : Core) : (s.setCore c x).tenant t' = s.tenant t' := rfl

-- The memories, the clock, the firmware slots, and what leaves the module.

@[simp] theorem setMem_mem (g : Mems → Mems) : (s.setMem g).mem = g s.mem := rfl
@[simp] theorem setMem_pending (g : Mems → Mems) : (s.setMem g).pending = s.pending := rfl
@[simp] theorem setMem_cells (g : Mems → Mems) : (s.setMem g).cells = s.cells := rfl
@[simp] theorem setMem_pans (g : Mems → Mems) : (s.setMem g).pans = s.pans := rfl
@[simp] theorem setMem_ptw (g : Mems → Mems) : (s.setMem g).ptw = s.ptw := rfl
@[simp] theorem setMem_parts (g : Mems → Mems) : (s.setMem g).parts = s.parts := rfl
@[simp] theorem setMem_fns (g : Mems → Mems) : (s.setMem g).fns = s.fns := rfl
@[simp] theorem setMem_hps (g : Mems → Mems) : (s.setMem g).hps = s.hps := rfl
@[simp] theorem setMem_streams (g : Mems → Mems) : (s.setMem g).streams = s.streams := rfl
@[simp] theorem setMem_ctrls (g : Mems → Mems) : (s.setMem g).ctrls = s.ctrls := rfl
@[simp] theorem setMem_reflexq (g : Mems → Mems) : (s.setMem g).reflexq = s.reflexq := rfl
@[simp] theorem setMem_reflexCur (g : Mems → Mems) : (s.setMem g).reflexCur = s.reflexCur := rfl
@[simp] theorem setMem_sports (g : Mems → Mems) : (s.setMem g).sports = s.sports := rfl
@[simp] theorem setMem_links (g : Mems → Mems) : (s.setMem g).links = s.links := rfl
@[simp] theorem setMem_pair (g : Mems → Mems) : (s.setMem g).pair = s.pair := rfl
@[simp] theorem setMem_blocks (g : Mems → Mems) : (s.setMem g).blocks = s.blocks := rfl
@[simp] theorem setMem_power (g : Mems → Mems) : (s.setMem g).power = s.power := rfl
@[simp] theorem setMem_vpairs (g : Mems → Mems) : (s.setMem g).vpairs = s.vpairs := rfl
@[simp] theorem setMem_ddr (g : Mems → Mems) : (s.setMem g).ddr = s.ddr := rfl
@[simp] theorem setMem_tenants (g : Mems → Mems) : (s.setMem g).tenants = s.tenants := rfl
@[simp] theorem setMem_dome (g : Mems → Mems) : (s.setMem g).dome = s.dome := rfl
@[simp] theorem setMem_fw (g : Mems → Mems) : (s.setMem g).fw = s.fw := rfl
@[simp] theorem setMem_watch (g : Mems → Mems) : (s.setMem g).watch = s.watch := rfl
@[simp] theorem setMem_faults (g : Mems → Mems) : (s.setMem g).faults = s.faults := rfl
@[simp] theorem setMem_clk (g : Mems → Mems) : (s.setMem g).clk = s.clk := rfl
@[simp] theorem setMem_bru (g : Mems → Mems) : (s.setMem g).bru = s.bru := rfl
@[simp] theorem setMem_board (g : Mems → Mems) : (s.setMem g).board = s.board := rfl
@[simp] theorem setMem_mbeat (g : Mems → Mems) : (s.setMem g).mbeat = s.mbeat := rfl
@[simp] theorem setMem_seqCycle (g : Mems → Mems) : (s.setMem g).seqCycle = s.seqCycle := rfl
@[simp] theorem setMem_pmask (g : Mems → Mems) : (s.setMem g).pmask = s.pmask := rfl
@[simp] theorem setMem_scrubs (g : Mems → Mems) : (s.setMem g).scrubs = s.scrubs := rfl
@[simp] theorem setMem_filling (g : Mems → Mems) : (s.setMem g).filling = s.filling := rfl
@[simp] theorem setMem_latch (g : Mems → Mems) : (s.setMem g).latch = s.latch := rfl
@[simp] theorem setMem_lowBuf (g : Mems → Mems) : (s.setMem g).lowBuf = s.lowBuf := rfl
@[simp] theorem setMem_rdata (g : Mems → Mems) : (s.setMem g).rdata = s.rdata := rfl
@[simp] theorem setMem_wire (g : Mems → Mems) : (s.setMem g).wire = s.wire := rfl
@[simp] theorem setMem_freeCtr (g : Mems → Mems) : (s.setMem g).freeCtr = s.freeCtr := rfl
@[simp] theorem setMem_cell (g : Mems → Mems) (n' : Nat) : (s.setMem g).cell n' = s.cell n' := rfl
@[simp] theorem setMem_pan (g : Mems → Mems) (n' : Nat) : (s.setMem g).pan n' = s.pan n' := rfl
@[simp] theorem setMem_win (g : Mems → Mems) (w' : Nat) : (s.setMem g).win w' = s.win w' := rfl
@[simp] theorem setMem_part (g : Mems → Mems) (p' : Nat) : (s.setMem g).part p' = s.part p' := rfl
@[simp] theorem setMem_fn (g : Mems → Mems) (f' : Nat) : (s.setMem g).fn f' = s.fn f' := rfl
@[simp] theorem setMem_hp (g : Mems → Mems) (h' f' : Nat) : (s.setMem g).hp h' f' = s.hp h' f' := rfl
@[simp] theorem setMem_stream (g : Mems → Mems) (i' : Nat) : (s.setMem g).stream i' = s.stream i' := rfl
@[simp] theorem setMem_sport (g : Mems → Mems) (i' : Nat) : (s.setMem g).sport i' = s.sport i' := rfl
@[simp] theorem setMem_link (g : Mems → Mems) (i' : Nat) : (s.setMem g).link i' = s.link i' := rfl
@[simp] theorem setMem_block (g : Mems → Mems) (b' : Nat) : (s.setMem g).block b' = s.block b' := rfl
@[simp] theorem setMem_vpair (g : Mems → Mems) (k' : Nat) : (s.setMem g).vpair k' = s.vpair k' := rfl
@[simp] theorem setMem_dchan (g : Mems → Mems) (c' : Nat) : (s.setMem g).dchan c' = s.dchan c' := rfl
@[simp] theorem setMem_tenant (g : Mems → Mems) (t' : Nat) : (s.setMem g).tenant t' = s.tenant t' := rfl
@[simp] theorem setMem_core (g : Mems → Mems) (c' : Nat) : (s.setMem g).core c' = s.core c' := rfl
@[simp] theorem onClk_clk (g : Clock → Clock) : (s.onClk g).clk = g s.clk := rfl
@[simp] theorem onClk_pending (g : Clock → Clock) : (s.onClk g).pending = s.pending := rfl
@[simp] theorem onClk_mem (g : Clock → Clock) : (s.onClk g).mem = s.mem := rfl
@[simp] theorem onClk_cells (g : Clock → Clock) : (s.onClk g).cells = s.cells := rfl
@[simp] theorem onClk_pans (g : Clock → Clock) : (s.onClk g).pans = s.pans := rfl
@[simp] theorem onClk_ptw (g : Clock → Clock) : (s.onClk g).ptw = s.ptw := rfl
@[simp] theorem onClk_parts (g : Clock → Clock) : (s.onClk g).parts = s.parts := rfl
@[simp] theorem onClk_fns (g : Clock → Clock) : (s.onClk g).fns = s.fns := rfl
@[simp] theorem onClk_hps (g : Clock → Clock) : (s.onClk g).hps = s.hps := rfl
@[simp] theorem onClk_streams (g : Clock → Clock) : (s.onClk g).streams = s.streams := rfl
@[simp] theorem onClk_ctrls (g : Clock → Clock) : (s.onClk g).ctrls = s.ctrls := rfl
@[simp] theorem onClk_reflexq (g : Clock → Clock) : (s.onClk g).reflexq = s.reflexq := rfl
@[simp] theorem onClk_reflexCur (g : Clock → Clock) : (s.onClk g).reflexCur = s.reflexCur := rfl
@[simp] theorem onClk_sports (g : Clock → Clock) : (s.onClk g).sports = s.sports := rfl
@[simp] theorem onClk_links (g : Clock → Clock) : (s.onClk g).links = s.links := rfl
@[simp] theorem onClk_pair (g : Clock → Clock) : (s.onClk g).pair = s.pair := rfl
@[simp] theorem onClk_blocks (g : Clock → Clock) : (s.onClk g).blocks = s.blocks := rfl
@[simp] theorem onClk_power (g : Clock → Clock) : (s.onClk g).power = s.power := rfl
@[simp] theorem onClk_vpairs (g : Clock → Clock) : (s.onClk g).vpairs = s.vpairs := rfl
@[simp] theorem onClk_ddr (g : Clock → Clock) : (s.onClk g).ddr = s.ddr := rfl
@[simp] theorem onClk_tenants (g : Clock → Clock) : (s.onClk g).tenants = s.tenants := rfl
@[simp] theorem onClk_dome (g : Clock → Clock) : (s.onClk g).dome = s.dome := rfl
@[simp] theorem onClk_fw (g : Clock → Clock) : (s.onClk g).fw = s.fw := rfl
@[simp] theorem onClk_watch (g : Clock → Clock) : (s.onClk g).watch = s.watch := rfl
@[simp] theorem onClk_faults (g : Clock → Clock) : (s.onClk g).faults = s.faults := rfl
@[simp] theorem onClk_bru (g : Clock → Clock) : (s.onClk g).bru = s.bru := rfl
@[simp] theorem onClk_board (g : Clock → Clock) : (s.onClk g).board = s.board := rfl
@[simp] theorem onClk_mbeat (g : Clock → Clock) : (s.onClk g).mbeat = s.mbeat := rfl
@[simp] theorem onClk_seqCycle (g : Clock → Clock) : (s.onClk g).seqCycle = s.seqCycle := rfl
@[simp] theorem onClk_pmask (g : Clock → Clock) : (s.onClk g).pmask = s.pmask := rfl
@[simp] theorem onClk_scrubs (g : Clock → Clock) : (s.onClk g).scrubs = s.scrubs := rfl
@[simp] theorem onClk_filling (g : Clock → Clock) : (s.onClk g).filling = s.filling := rfl
@[simp] theorem onClk_latch (g : Clock → Clock) : (s.onClk g).latch = s.latch := rfl
@[simp] theorem onClk_lowBuf (g : Clock → Clock) : (s.onClk g).lowBuf = s.lowBuf := rfl
@[simp] theorem onClk_rdata (g : Clock → Clock) : (s.onClk g).rdata = s.rdata := rfl
@[simp] theorem onClk_wire (g : Clock → Clock) : (s.onClk g).wire = s.wire := rfl
@[simp] theorem onClk_freeCtr (g : Clock → Clock) : (s.onClk g).freeCtr = s.freeCtr := rfl
@[simp] theorem onClk_cell (g : Clock → Clock) (n' : Nat) : (s.onClk g).cell n' = s.cell n' := rfl
@[simp] theorem onClk_pan (g : Clock → Clock) (n' : Nat) : (s.onClk g).pan n' = s.pan n' := rfl
@[simp] theorem onClk_win (g : Clock → Clock) (w' : Nat) : (s.onClk g).win w' = s.win w' := rfl
@[simp] theorem onClk_part (g : Clock → Clock) (p' : Nat) : (s.onClk g).part p' = s.part p' := rfl
@[simp] theorem onClk_fn (g : Clock → Clock) (f' : Nat) : (s.onClk g).fn f' = s.fn f' := rfl
@[simp] theorem onClk_hp (g : Clock → Clock) (h' f' : Nat) : (s.onClk g).hp h' f' = s.hp h' f' := rfl
@[simp] theorem onClk_stream (g : Clock → Clock) (i' : Nat) : (s.onClk g).stream i' = s.stream i' := rfl
@[simp] theorem onClk_sport (g : Clock → Clock) (i' : Nat) : (s.onClk g).sport i' = s.sport i' := rfl
@[simp] theorem onClk_link (g : Clock → Clock) (i' : Nat) : (s.onClk g).link i' = s.link i' := rfl
@[simp] theorem onClk_block (g : Clock → Clock) (b' : Nat) : (s.onClk g).block b' = s.block b' := rfl
@[simp] theorem onClk_vpair (g : Clock → Clock) (k' : Nat) : (s.onClk g).vpair k' = s.vpair k' := rfl
@[simp] theorem onClk_dchan (g : Clock → Clock) (c' : Nat) : (s.onClk g).dchan c' = s.dchan c' := rfl
@[simp] theorem onClk_tenant (g : Clock → Clock) (t' : Nat) : (s.onClk g).tenant t' = s.tenant t' := rfl
@[simp] theorem onClk_core (g : Clock → Clock) (c' : Nat) : (s.onClk g).core c' = s.core c' := rfl
@[simp] theorem onFw_fw (g : Firmware → Firmware) : (s.onFw g).fw = g s.fw := rfl
@[simp] theorem onFw_pending (g : Firmware → Firmware) : (s.onFw g).pending = s.pending := rfl
@[simp] theorem onFw_mem (g : Firmware → Firmware) : (s.onFw g).mem = s.mem := rfl
@[simp] theorem onFw_cells (g : Firmware → Firmware) : (s.onFw g).cells = s.cells := rfl
@[simp] theorem onFw_pans (g : Firmware → Firmware) : (s.onFw g).pans = s.pans := rfl
@[simp] theorem onFw_ptw (g : Firmware → Firmware) : (s.onFw g).ptw = s.ptw := rfl
@[simp] theorem onFw_parts (g : Firmware → Firmware) : (s.onFw g).parts = s.parts := rfl
@[simp] theorem onFw_fns (g : Firmware → Firmware) : (s.onFw g).fns = s.fns := rfl
@[simp] theorem onFw_hps (g : Firmware → Firmware) : (s.onFw g).hps = s.hps := rfl
@[simp] theorem onFw_streams (g : Firmware → Firmware) : (s.onFw g).streams = s.streams := rfl
@[simp] theorem onFw_ctrls (g : Firmware → Firmware) : (s.onFw g).ctrls = s.ctrls := rfl
@[simp] theorem onFw_reflexq (g : Firmware → Firmware) : (s.onFw g).reflexq = s.reflexq := rfl
@[simp] theorem onFw_reflexCur (g : Firmware → Firmware) : (s.onFw g).reflexCur = s.reflexCur := rfl
@[simp] theorem onFw_sports (g : Firmware → Firmware) : (s.onFw g).sports = s.sports := rfl
@[simp] theorem onFw_links (g : Firmware → Firmware) : (s.onFw g).links = s.links := rfl
@[simp] theorem onFw_pair (g : Firmware → Firmware) : (s.onFw g).pair = s.pair := rfl
@[simp] theorem onFw_blocks (g : Firmware → Firmware) : (s.onFw g).blocks = s.blocks := rfl
@[simp] theorem onFw_power (g : Firmware → Firmware) : (s.onFw g).power = s.power := rfl
@[simp] theorem onFw_vpairs (g : Firmware → Firmware) : (s.onFw g).vpairs = s.vpairs := rfl
@[simp] theorem onFw_ddr (g : Firmware → Firmware) : (s.onFw g).ddr = s.ddr := rfl
@[simp] theorem onFw_tenants (g : Firmware → Firmware) : (s.onFw g).tenants = s.tenants := rfl
@[simp] theorem onFw_dome (g : Firmware → Firmware) : (s.onFw g).dome = s.dome := rfl
@[simp] theorem onFw_watch (g : Firmware → Firmware) : (s.onFw g).watch = s.watch := rfl
@[simp] theorem onFw_faults (g : Firmware → Firmware) : (s.onFw g).faults = s.faults := rfl
@[simp] theorem onFw_clk (g : Firmware → Firmware) : (s.onFw g).clk = s.clk := rfl
@[simp] theorem onFw_bru (g : Firmware → Firmware) : (s.onFw g).bru = s.bru := rfl
@[simp] theorem onFw_board (g : Firmware → Firmware) : (s.onFw g).board = s.board := rfl
@[simp] theorem onFw_mbeat (g : Firmware → Firmware) : (s.onFw g).mbeat = s.mbeat := rfl
@[simp] theorem onFw_seqCycle (g : Firmware → Firmware) : (s.onFw g).seqCycle = s.seqCycle := rfl
@[simp] theorem onFw_pmask (g : Firmware → Firmware) : (s.onFw g).pmask = s.pmask := rfl
@[simp] theorem onFw_scrubs (g : Firmware → Firmware) : (s.onFw g).scrubs = s.scrubs := rfl
@[simp] theorem onFw_filling (g : Firmware → Firmware) : (s.onFw g).filling = s.filling := rfl
@[simp] theorem onFw_latch (g : Firmware → Firmware) : (s.onFw g).latch = s.latch := rfl
@[simp] theorem onFw_lowBuf (g : Firmware → Firmware) : (s.onFw g).lowBuf = s.lowBuf := rfl
@[simp] theorem onFw_rdata (g : Firmware → Firmware) : (s.onFw g).rdata = s.rdata := rfl
@[simp] theorem onFw_wire (g : Firmware → Firmware) : (s.onFw g).wire = s.wire := rfl
@[simp] theorem onFw_freeCtr (g : Firmware → Firmware) : (s.onFw g).freeCtr = s.freeCtr := rfl
@[simp] theorem onFw_cell (g : Firmware → Firmware) (n' : Nat) : (s.onFw g).cell n' = s.cell n' := rfl
@[simp] theorem onFw_pan (g : Firmware → Firmware) (n' : Nat) : (s.onFw g).pan n' = s.pan n' := rfl
@[simp] theorem onFw_win (g : Firmware → Firmware) (w' : Nat) : (s.onFw g).win w' = s.win w' := rfl
@[simp] theorem onFw_part (g : Firmware → Firmware) (p' : Nat) : (s.onFw g).part p' = s.part p' := rfl
@[simp] theorem onFw_fn (g : Firmware → Firmware) (f' : Nat) : (s.onFw g).fn f' = s.fn f' := rfl
@[simp] theorem onFw_hp (g : Firmware → Firmware) (h' f' : Nat) : (s.onFw g).hp h' f' = s.hp h' f' := rfl
@[simp] theorem onFw_stream (g : Firmware → Firmware) (i' : Nat) : (s.onFw g).stream i' = s.stream i' := rfl
@[simp] theorem onFw_sport (g : Firmware → Firmware) (i' : Nat) : (s.onFw g).sport i' = s.sport i' := rfl
@[simp] theorem onFw_link (g : Firmware → Firmware) (i' : Nat) : (s.onFw g).link i' = s.link i' := rfl
@[simp] theorem onFw_block (g : Firmware → Firmware) (b' : Nat) : (s.onFw g).block b' = s.block b' := rfl
@[simp] theorem onFw_vpair (g : Firmware → Firmware) (k' : Nat) : (s.onFw g).vpair k' = s.vpair k' := rfl
@[simp] theorem onFw_dchan (g : Firmware → Firmware) (c' : Nat) : (s.onFw g).dchan c' = s.dchan c' := rfl
@[simp] theorem onFw_tenant (g : Firmware → Firmware) (t' : Nat) : (s.onFw g).tenant t' = s.tenant t' := rfl
@[simp] theorem onFw_core (g : Firmware → Firmware) (c' : Nat) : (s.onFw g).core c' = s.core c' := rfl
@[simp] theorem out_wire (g : Wire) : (s.out g).wire = s.wire ++ [g] := rfl
@[simp] theorem out_pending (g : Wire) : (s.out g).pending = s.pending := rfl
@[simp] theorem out_mem (g : Wire) : (s.out g).mem = s.mem := rfl
@[simp] theorem out_cells (g : Wire) : (s.out g).cells = s.cells := rfl
@[simp] theorem out_pans (g : Wire) : (s.out g).pans = s.pans := rfl
@[simp] theorem out_ptw (g : Wire) : (s.out g).ptw = s.ptw := rfl
@[simp] theorem out_parts (g : Wire) : (s.out g).parts = s.parts := rfl
@[simp] theorem out_fns (g : Wire) : (s.out g).fns = s.fns := rfl
@[simp] theorem out_hps (g : Wire) : (s.out g).hps = s.hps := rfl
@[simp] theorem out_streams (g : Wire) : (s.out g).streams = s.streams := rfl
@[simp] theorem out_ctrls (g : Wire) : (s.out g).ctrls = s.ctrls := rfl
@[simp] theorem out_reflexq (g : Wire) : (s.out g).reflexq = s.reflexq := rfl
@[simp] theorem out_reflexCur (g : Wire) : (s.out g).reflexCur = s.reflexCur := rfl
@[simp] theorem out_sports (g : Wire) : (s.out g).sports = s.sports := rfl
@[simp] theorem out_links (g : Wire) : (s.out g).links = s.links := rfl
@[simp] theorem out_pair (g : Wire) : (s.out g).pair = s.pair := rfl
@[simp] theorem out_blocks (g : Wire) : (s.out g).blocks = s.blocks := rfl
@[simp] theorem out_power (g : Wire) : (s.out g).power = s.power := rfl
@[simp] theorem out_vpairs (g : Wire) : (s.out g).vpairs = s.vpairs := rfl
@[simp] theorem out_ddr (g : Wire) : (s.out g).ddr = s.ddr := rfl
@[simp] theorem out_tenants (g : Wire) : (s.out g).tenants = s.tenants := rfl
@[simp] theorem out_dome (g : Wire) : (s.out g).dome = s.dome := rfl
@[simp] theorem out_fw (g : Wire) : (s.out g).fw = s.fw := rfl
@[simp] theorem out_watch (g : Wire) : (s.out g).watch = s.watch := rfl
@[simp] theorem out_faults (g : Wire) : (s.out g).faults = s.faults := rfl
@[simp] theorem out_clk (g : Wire) : (s.out g).clk = s.clk := rfl
@[simp] theorem out_bru (g : Wire) : (s.out g).bru = s.bru := rfl
@[simp] theorem out_board (g : Wire) : (s.out g).board = s.board := rfl
@[simp] theorem out_mbeat (g : Wire) : (s.out g).mbeat = s.mbeat := rfl
@[simp] theorem out_seqCycle (g : Wire) : (s.out g).seqCycle = s.seqCycle := rfl
@[simp] theorem out_pmask (g : Wire) : (s.out g).pmask = s.pmask := rfl
@[simp] theorem out_scrubs (g : Wire) : (s.out g).scrubs = s.scrubs := rfl
@[simp] theorem out_filling (g : Wire) : (s.out g).filling = s.filling := rfl
@[simp] theorem out_latch (g : Wire) : (s.out g).latch = s.latch := rfl
@[simp] theorem out_lowBuf (g : Wire) : (s.out g).lowBuf = s.lowBuf := rfl
@[simp] theorem out_rdata (g : Wire) : (s.out g).rdata = s.rdata := rfl
@[simp] theorem out_freeCtr (g : Wire) : (s.out g).freeCtr = s.freeCtr := rfl
@[simp] theorem out_cell (g : Wire) (n' : Nat) : (s.out g).cell n' = s.cell n' := rfl
@[simp] theorem out_pan (g : Wire) (n' : Nat) : (s.out g).pan n' = s.pan n' := rfl
@[simp] theorem out_win (g : Wire) (w' : Nat) : (s.out g).win w' = s.win w' := rfl
@[simp] theorem out_part (g : Wire) (p' : Nat) : (s.out g).part p' = s.part p' := rfl
@[simp] theorem out_fn (g : Wire) (f' : Nat) : (s.out g).fn f' = s.fn f' := rfl
@[simp] theorem out_hp (g : Wire) (h' f' : Nat) : (s.out g).hp h' f' = s.hp h' f' := rfl
@[simp] theorem out_stream (g : Wire) (i' : Nat) : (s.out g).stream i' = s.stream i' := rfl
@[simp] theorem out_sport (g : Wire) (i' : Nat) : (s.out g).sport i' = s.sport i' := rfl
@[simp] theorem out_link (g : Wire) (i' : Nat) : (s.out g).link i' = s.link i' := rfl
@[simp] theorem out_block (g : Wire) (b' : Nat) : (s.out g).block b' = s.block b' := rfl
@[simp] theorem out_vpair (g : Wire) (k' : Nat) : (s.out g).vpair k' = s.vpair k' := rfl
@[simp] theorem out_dchan (g : Wire) (c' : Nat) : (s.out g).dchan c' = s.dchan c' := rfl
@[simp] theorem out_tenant (g : Wire) (t' : Nat) : (s.out g).tenant t' = s.tenant t' := rfl
@[simp] theorem out_core (g : Wire) (c' : Nat) : (s.out g).core c' = s.core c' := rfl

/-- An entry of the page table after a write of one. -/
theorem setPte_pte (row row' : Nat) (e : DWord) : (s.setPte row e).pte row' = if row = row' then e else s.pte row' :=
  Sp.get_set ..

end Sys2Proof.Machine
end

