-- ==== Sys2Proof/Tests/Slice0.lean ====
section
/-!
SUPPORT. Tests: each check of WellFormed refuses a term that breaks it; words and check values worked out from the standards that the
spec names; and for every statement of the obligations, states that meet its hypotheses, clause by clause, so that by it the command
completes there.
-/
namespace Sys2Proof.Tests
open Machine

set_option Elab.async false

-- Well-formed commands.

/-- Terms that each break one check of WellFormed. -/
theorem test_wf_refuses1 :
    ([.registerWrite (.dome 8 0) 32 0, .registerWrite (.dome 0 (2 ^ 64)) 32 0, .registerWrite (.bar0 2 0 0) 32 0, .registerWrite (.bar0
      0 17 0) 32 0, .registerWrite (.bar0 0 0 0x4000) 32 0, .registerWrite (.dome 0 0) 64 0, .lowHalfRead (.dome 8 0), .lowHalfRead
      (.dome 0 (2 ^ 64)), .lowHalfRead (.bar0 2 0 0), .lowHalfRead (.bar0 0 17 0), .lowHalfRead (.bar0 0 0 0x4000), .rcRead (.dome 8 0),
      .rcRead (.dome 0 (2 ^ 64)), .rcRead (.bar0 2 0 0), .rcRead (.bar0 0 17 0), .rcRead (.bar0 0 0 0x4000), .ptRead 8 false 0, .ptRead
      0 false 256, .alloc 8 false 0, .alloc 0 false 256, .refInc 8 false 0, .refInc 0 false 256, .refDec 8 false 0, .refDec 0 false 256]
      : List Instr).all (fun c => !c.wf) = true := by decide +kernel

/-- Terms that each break one check of WellFormed. -/
theorem test_wf_refuses2 :
    ([.seal 8 false 0, .seal 0 false 256, .retag 8 false 0, .retag 0 false 256, .clean 8 false 0, .clean 0 false 256, .free 8 false 0,
      .free 0 false 256, .restore 8 false 0, .restore 0 false 256, .pageTableOpEnd 8, .fillComplete 131072, .release 16 0 0, .release 0
      16 0, .release 0 0 2, .commit 16, .abort 16, .seqStepWrite 16 false 0, .bindWrite 16 0, .bindWriteEnd 16, .ptmDlWrite 16 false 0,
      .plateFetch 16, .segmentAccept 1024, .operationStart 1024 0] : List Instr).all (fun c => !c.wf) = true := by decide +kernel

/-- Terms that each break one check of WellFormed. -/
theorem test_wf_refuses3 :
    ([.operationStart 0 14, .matmul 1024 0, .matmul 0 4, .drain 1024 0, .drain 0 4, .vecSimpleFp32 1024, .vecInteger 1024,
      .vecConversion 1024, .vecDivideRoot 1024, .vecElementary 1024, .vecReduction 1024, .vecMovement 1024, .vecMemory 1024, .panrd 1024
      0, .panrd 0 4, .panwr 1024 0, .panwr 0 4, .gather 1024 0, .gather 0 4, .move 1024, .cold 1024, .barrier 16, .phase 16, .endPlate
      16] : List Instr).all (fun c => !c.wf) = true := by decide +kernel

/-- Terms that each break one check of WellFormed. -/
theorem test_wf_refuses4 :
    ([.strin 1024, .strout 1024, .operationComplete 1024 0, .moveAcknowledge 1024 0, .barrierComplete 16, .staggerRelease 16,
      .limiterGrant 16, .stepCompletion 16, .stall 16, .deadlineMiss 16, .panPatrolRead 4096 [], .rowCopyComplete 4096 0 0,
      .rowCopyComplete 0 8 0, .rowCopyComplete 0 0 512, .cellRepair 1024 0, .ageingCheck 1024 false, .oscillatorTrim 1024 0,
      .meshFlitResend 1024 0, .meshFlitResend 0 8, .boundaryProcedure 16, .commitRecordWrite 16, .standbyRelease 16, .replay 16,
      .rebuild 16] : List Instr).all (fun c => !c.wf) = true := by decide +kernel

/-- Terms that each break one check of WellFormed. -/
theorem test_wf_refuses5 :
    ([.scrubComplete (.ctx 16 0), .scrubComplete (.ctx 0 64), .scrubComplete (.part 16), .scrubComplete (.pair 4), .apertureWrite 2 0 0
      [], .apertureWrite 0 17 0 [], .hpApReset 2 0, .hpApReset 0 17, .ringEnWrite 2 0 0, .ringEnWrite 0 17 0, .hpRingHeadWrite 2 0 0,
      .hpRingHeadWrite 0 17 0, .inboundFrame 2 0, .inboundFrame 0 17, .logEntryAck 17 0, .logEntryAck 0 256, .egressWrite 2 0,
      .egressWrite 0 17, .irqDelayExpiry 2 0, .irqDelayExpiry 0 17, .flr 2 0, .flr 0 17, .configRequest 2 { f := 0, reg := .other },
      .configRequest 0 { f := 17, reg := .other }] : List Instr).all (fun c => !c.wf) = true := by decide +kernel

/-- Terms that each break one check of WellFormed. -/
theorem test_wf_refuses6 :
    ([.configRequest 0 { f := 0, reg := .maxPayload, write := some (2 ^ 32) }, .hello 17, .session 17, .chanQuery 17, .tenantCreate 17,
      .tenantDelete 17, .ddrAssign 17, .rangeSet 17, .partCreate 17, .partDelete 17, .vpairAlloc 17, .vpairRelease 17, .policySet 17,
      .inchConfig 17, .outchConfig 17, .toleranceSet 17, .ctxOpen 17, .ctxClose 17, .fork 17, .seqDrop 17, .imgBegin 17, .imgBlock 17,
      .imgEnd 17, .imgAbort 17] : List Instr).all (fun c => !c.wf) = true := by decide +kernel

/-- Terms that each break one check of WellFormed. -/
theorem test_wf_refuses7 :
    ([.plateUnload 17, .tableUnload 17, .weightsUnload 17, .modelRegister 17, .modelRemove 17, .profileSet 17, .profileRemove 17,
      .treeSet 17, .vctxOpen 17, .vctxClose 17, .keyRequest 17, .attest 17, .fwBegin 17, .fwBlock 17, .fwEnd 17, .fwAbort 17,
      .fwActivate 17, .fwStatus 17, .pairConfig 17, .pairStatus 17, .pairUnpair 17, .pairSuspect 17, .pairResync 17, .pairSnapshot 17] :
      List Instr).all (fun c => !c.wf) = true := by decide +kernel

/-- Terms that each break one check of WellFormed. -/
theorem test_wf_refuses8 :
    ([.snapshotTransmit 16, .mirrorDecision 2 0, .mirrorDecision 0 17, .snapBegin 17, .snapDome 17, .snapPage 17, .snapEnd 17,
      .sensorDatagram 2 [], .rtpDatagram 2 [], .reflexDatagram 2 [], .addressResolution 3 0 [], .addressResolution 0 (2 ^ 48) [],
      .streamFrameDiscard 2 [], .streamDeadlineExpiry 32 .silence, .lldpTransmit 6, .lldpReceive 6 0 (.hash 0), .lldpExpiry 6,
      .remapWord 6 none, .laneLockLoss 6 0, .laneLockLoss 0 9, .linkDown 6, .pictureDecode 4, .shapePicture 4 0, .shapePicture 0 8] :
      List Instr).all (fun c => !c.wf) = true := by decide +kernel

/-- Terms that each break one check of WellFormed. -/
theorem test_wf_refuses9 :
    ([.pictureReady 4 0, .pictureReady 0 8, .encodePicture 4 0, .encodePicture 0 8, .sliceCoded 4 0, .sliceCoded 0 8, .ddrWriteAck 8,
      .deviceFailed 8 0, .deviceFailed 0 19, .spareCopyComplete 8, .ddrPatrolRead 8 0 0 [], .ddrPatrolRead 0 262144 0 [], .ddrPatrolRead
      0 0 4096 [], .ddrPatrolRead 0 0 0 [19], .zqCalibration 8, .selfRefreshChange 8, .panApertureAccess 8 0 none, .coldApertureAccess 8
      0 none, .domeKick 8, .domeWatchdogExpiry 8, .domeCacheUe 8, .dicClaim 8, .dicComplete 8 0, .dicSoftWrite 8 0] : List Instr).all
      (fun c => !c.wf) = true := by decide +kernel

/-- Terms that each break one check of WellFormed. -/
theorem test_wf_refuses10 :
    ([.dicTimerExpiry 8, .pwrPolWrite 16 0, .idleWrite 16 0, .offWrite 16 0, .idleHoldExpiry 16, .p3ExitDone 16, .powerSample 65536 0,
      .policyConflict 16, .droopDetect 16, .stretchEnd 16, .droopLong 16 false, .thermalLimitStep 16 0, .thermalLimitStep 0 4096,
      .thermal 16 0, .thermal 0 4096, .thermalTrip 16 0, .thermalTrip 0 4096, .coolant 65536 0, .coolant 0 65536, .trimLock 65536,
      .coldReset 7 false, .warmReset 7, .computeReset 7, .partitionReset 16] : List Instr).all (fun c => !c.wf) = true :=
      by decide +kernel

/-- Terms that each break one check of WellFormed. -/
theorem test_wf_refuses11 :
    ([.linkTrained 6 0, .linkTrained 0 9, .bufferSetRelease 4 0 0, .bufferSetRelease 0 8 0, .bufferSetRelease 0 0 16, .pwrTolWrite 16 0,
      .ddrOwnWrite 8 0] : List Instr).all (fun c => !c.wf) = true := by decide +kernel

-- The step.

/-- PAGE_TABLE_OP_END waits in front of another command. -/
def twoWait : State := { State.reset with pending := [.pageTableOpEnd 0, .heartbeat] }

theorem test_StepRunsFrontCommand_met (h : Obligations.StepRunsFrontCommand) :
    step twoWait = exec (.pageTableOpEnd 0) { State.reset with pending := [.heartbeat] } :=
  h (.pageTableOpEnd 0) [.heartbeat] twoWait rfl

/-- The tick runs. -/
def ticking : State := { State.reset with clk := { running := true, tick := 2 ^ 64 - 1 } }

theorem test_IdleStepIsOneTick_met (h : Obligations.IdleStepIsOneTick) :
    (∃ t, step ticking = .next t ∧ t.clk.tick = 0) ∧ step State.reset = .next State.reset := by
  refine ⟨?_, (h State.reset rfl).2 rfl⟩
  obtain ⟨t, e, k, _⟩ := (h ticking rfl).1 rfl
  exact ⟨t, e, by rw [k]; rfl⟩

theorem test_StepKeepsMemoriesCanonical_met (h : Obligations.StepKeepsMemoriesCanonical) :
    ∃ t, step twoWait = .next t ∧ t.mem.wf = true :=
  ⟨_, rfl, h twoWait _ (by decide +kernel) rfl⟩

/-- No word spells a command: the table gives no row bits. -/
theorem test_decode_none : decodeTableWord 16 0x1234 = none := rfl

-- Check values of the standards that the spec names, as those standards give them.

/-- CRC-32C of the nine digits (RFC 3720 lists the code; its check value is 0xE3069283). -/
theorem test_crc32c : Crypto.crc32c [49, 50, 51, 52, 53, 54, 55, 56, 57] = 0xE3069283 := by decide +kernel

/-- SHA-512 of abc (FIPS 180-4): its first eight bytes. -/
theorem test_sha512 : (Crypto.sha512 [97, 98, 99]).take 8 = [0xDD, 0xAF, 0x35, 0xA1, 0x93, 0x61, 0x7A, 0xBA] := by decide +kernel

/-- AES-256-XTS: the first two blocks of vector 10 of IEEE 1619. -/
theorem test_xts : Crypto.xtsSeal (bytes
    [39, 24, 40, 24, 40, 69, 144, 69, 35, 83, 96, 40, 116, 113, 53, 38, 98, 73, 119, 87, 36, 112, 147, 105, 153, 89, 87, 73, 102,
    150, 118, 39, 49, 65, 89, 38, 83, 88, 151, 147, 35, 132, 98, 100, 51, 131, 39, 149, 2, 136, 65, 151, 22, 147, 153, 55, 81, 5,
    130, 9, 116, 148, 69, 146])
    0xFF ((List.range 32).map (BitVec.ofNat 8)) = bytes
    [28, 59, 58, 16, 47, 119, 3, 134, 228, 131, 108, 153, 227, 112, 207, 155, 234, 0, 128, 63, 94, 72, 35, 87, 164, 174, 18, 212,
    20, 163, 230, 59] := by decide +kernel

-- The hypotheses of the statements.

/-- The command completes. -/
def Done (c : Instr) (s : State) : Prop := ∃ t, exec c s = .next t

theorem done {c : Instr} {s : State} {Q : State → Prop} (h : Claims.Does c s Q) : Done c s :=
  let ⟨t, e, _⟩ := h; ⟨t, e⟩

/-- Nothing that a release reads fails where no Pan error is listed. -/
theorem noErrors {s : State} {x : Part} {hs : List Nat} (h : s.mem.panErr = []) : Claims.PinnedClean s x hs :=
  fun _ _ _ _ _ _ _ => by simp [errsIn, h]

theorem noContexts {x : Part} (h : x.ctxs = []) (c : Nat) : (x.ctx c).st ≠ .closing := by
  simp [Part.ctx, Sp.get, h]

theorem kept {c : Instr} {s : State} (h : Claims.Leaves c s) : Done c s := ⟨s, h⟩

/-- A descriptor with the given fields: the place of the lowest bit, and the value. -/
def desc (l : List (Nat × Nat)) : Desc := BitVec.ofNat 256 (l.foldl (fun a e => a + e.2 * 2 ^ e.1) 0)

/-- A module that is ready, at tick 1000000. -/
def rdy : State := { State.reset with
  clk := { running := true, tick := 1000000 }
  bru := { ended := [1, 2, 4, 5, 6, 7, 8, 9, 10], isReady := true, depth := 0 } }

/-- The ready module with partition 0 on block 0. -/
def with0 (x : Part) : State := rdy.setPart 0 { x with present := true }

def boundary0 : State := with0 { step := 5 }
def released0 : State := with0 { st := .released, step := 5 }
def complete0 : State := with0 { st := .complete, step := 5 }
def stopped0 : State := with0 { st := .stopped, step := 5 }

/-- Partition 0 with a plate under handle 1 in SEQ_LIST. -/
def listed0 : State := with0 { plates := [(1, some { pages := [0], segBytes := 200, beats := 1 })], list := 1, step := 5 }

/-- Partition 0 released on the plate of handle 1. -/
def running0 : State := with0 { plates := [(1, some { pages := [0], segBytes := 200 })], handles := [1], st := .released, step := 5 }

/-- A window on row 5 with an entry to write, and the row's own entry. -/
def win (e v : DWord) : State := (boundary0.setPte 5 e).setWin 1 { row := 5, pte := v }

def livePte : DWord := Pte.make 0 0 Pte.live 0 0 0 3 7
def kvPte : DWord := Pte.make 1 2 Pte.live 0 4 2 3 7

/-- The released partition whose cell `n` is `c`. -/
def cellIs (n : Nat) (c : CellState) : State := released0.setCell n c

/-- Cell 1 of partition 0 with one operation that has started on unit `u`. -/
def started (u : Nat) (d : Desc) : State :=
  cellIs 1 { ops := [{ id := 3, desc := d, started := [u], trk := Dsc.tracked d }], nextOp := 4 }

/-- Cell 1 of partition 0 with one operation in the queue of unit `u`. -/
def queued (u : Nat) (d : Desc) : State :=
  cellIs 1 { ops := [{ id := 3, desc := d }], queues := [(u, [3])], nextOp := 4, tokens := [(2, 5)] }

/-- The hypotheses of ResetPulseLengths are met: each clause applies to a state. -/
theorem test_ResetPulseLengths_met (h : Claims.ResetPulseLengths) :
    Done (.modResetN true 999) rdy := by
  refine kept ((h true 999 rdy).1 ?_) <;> decide +kernel

def atLowHalfReadLatchesHighHalf1 : State := rdy.setCell 0 { beats := 0x500000007 }

/-- The hypotheses of LowHalfReadLatchesHighHalf are met: each clause applies to a state. -/
theorem test_LowHalfReadLatchesHighHalf_met (h : Claims.LowHalfReadLatchesHighHalf) :
    Done (.lowHalfRead (.dome 0 0x100000010)) atLowHalfReadLatchesHighHalf1 := by
  refine done (h 0 0x100000010 0x500000007 (.cell 0) 0x10 atLowHalfReadLatchesHighHalf1 ?_ ?_ ?_ ?_) <;> decide +kernel

/-- The hypotheses of CounterReadClears are met: each clause applies to a state. -/
theorem test_CounterReadClears_met (h : Claims.CounterReadClears) :
    Done (.rcRead (.dome 7 0x100010008)) (rdy.setPan 0 { ce := 9 })
    ∧ Done (.rcRead (.dome 0 0x10002FFEC)) (rdy.setPan 4095 { ue := 9 }) := by
  refine ⟨done ((h 7 0x100010008 0 (rdy.setPan 0 { ce := 9 }) ?_ ?_).1 ?_),
    done ((h 0 0x10002FFEC 4095 (rdy.setPan 4095 { ue := 9 }) ?_ ?_).2 ?_)⟩ <;> decide +kernel

/-- The hypotheses of RegisterWriteByAccessCode are met: each clause applies to a state. -/
theorem test_RegisterWriteByAccessCode_met (h : Claims.RegisterWriteByAccessCode) :
    Done (.registerWrite (.dome 0 0x10000000C) 32 5) (rdy.setCell 0 { stat := 7 })
    ∧ Done (.registerWrite (.dome 0 0x100000000) 32 5) rdy
    ∧ Done (.registerWrite (.dome 0 0x100000000) 16 5) rdy
    ∧ Done (.registerWrite (.bar0 1 16 8) 31 5) rdy := by
  refine ⟨done ((h 0 0x10000000C 0 5 (rdy.setCell 0 { stat := 7 }) ?_ ?_).1 ?_),
    kept ((h 0 0x100000000 0 5 rdy ?_ ?_).2.1 ?_),
    kept ((h 0 0x100000000 0 5 rdy ?_ ?_).2.2.1 (.cell 0) 0 16 ?_ ?_),
    kept ((h 0 0x100000000 0 5 rdy ?_ ?_).2.2.2 1 16 8 31 ?_)⟩ <;> decide +kernel

/-- The hypotheses of PageOperationsTakeEffect are met: each clause applies to a state. -/
theorem test_PageOperationsTakeEffect_met (h : Obligations.PageOperationsTakeEffect) :
    Done (.ptRead 1 true 3) (win livePte 0)
    ∧ Done (.alloc 1 false 0) (win 0 kvPte)
    ∧ Done (.refInc 1 true 3) (win livePte 0)
    ∧ Done (.refDec 1 false 3) (win kvPte 0)
    ∧ Done (.seal 1 false 3) (win livePte 0)
    ∧ Done (.retag 1 false 3) (win kvPte 0x0000500000000020)
    ∧ Done (.clean 1 false 3) (win (setBit livePte 9) 0)
    ∧ Done (.free 1 false 3) (win livePte 0)
    ∧ Done (.restore 1 false 3) (win 0 kvPte) := by
  refine ⟨done ((h 1 true 3 (win livePte 0) ?_).1 ?_),
    done ((h 1 false 0 (win 0 kvPte) ?_).2.1 ?_),
    done ((h 1 true 3 (win livePte 0) ?_).2.2.1 ?_),
    done ((h 1 false 3 (win kvPte 0) ?_).2.2.2.1 ?_),
    done ((h 1 false 3 (win livePte 0) ?_).2.2.2.2.1 ?_),
    done ((h 1 false 3 (win kvPte 0x0000500000000020) ?_).2.2.2.2.2.1 ?_),
    done ((h 1 false 3 (win (setBit livePte 9) 0) ?_).2.2.2.2.2.2.1 ?_),
    done ((h 1 false 3 (win livePte 0) ?_).2.2.2.2.2.2.2.1 ?_),
    done ((h 1 false 3 (win 0 kvPte) ?_).2.2.2.2.2.2.2.2 ?_)⟩ <;> decide +kernel

/-- The hypotheses of RefusedPageOperationChangesNoEntry are met: each clause applies to a state. -/
theorem test_RefusedPageOperationChangesNoEntry_met (h : Claims.RefusedPageOperationChangesNoEntry) :
    Done (.alloc 1 false 0) (win livePte livePte)
    ∧ Done (.restore 1 true 0) (win livePte livePte)
    ∧ Done (.restore 7 true 0) (rdy.setWin 7 { busy := true }) := by
  refine ⟨done ((h 1 1 1 false 0 (win livePte livePte) ?_).1 ?_ ?_),
    done ((h 1 8 6 true 0 (win livePte livePte) ?_).1 ?_ ?_),
    done ((h 7 8 6 true 0 (rdy.setWin 7 { busy := true }) ?_).2 ?_)⟩ <;> decide +kernel

def atPageOperationEndAndFill1 : State := (win livePte 0).setWin 1 { row := 6, busy := true, running := some (0, 5) }
def atPageOperationEndAndFill2 : State := { (win (Pte.make 0 0 3 0 0 0 255 0) 0).panWrite 655360 [1, 2] with filling := [5] }

/-- The hypotheses of PageOperationEndAndFill are met: each clause applies to a state. -/
theorem test_PageOperationEndAndFill_met (h : Claims.PageOperationEndAndFill) :
    Done (.pageTableOpEnd 1) atPageOperationEndAndFill1
    ∧ Done (.fillComplete 5) atPageOperationEndAndFill2 := by
  refine ⟨done (h.1 1 0 5 atPageOperationEndAndFill1 ?_),
    done (h.2 5 atPageOperationEndAndFill2 ?_)⟩ <;> decide +kernel

/-- The hypotheses of ReleaseStartsStepOrReports are met: each clause applies to a state. -/
theorem test_ReleaseStartsStepOrReports_met (h : Obligations.ReleaseStartsStepOrReports) :
    Done (.release 0 1 0) listed0
    ∧ Done (.release 0 8 1) boundary0
    ∧ Done (.release 0 1 1) released0 := by
  refine ⟨done ((h 0 1 0 listed0).1 ?_ ?_ (noErrors rfl)),
    done ((h 0 8 1 boundary0).2.1 ?_ ?_),
    done ((h 0 1 1 released0).2.2 ?_)⟩ <;> decide +kernel

def atCommitRaisesStepCount1 : State := with0 { st := .complete, step := 2 ^ 64 - 1 }

/-- The hypotheses of CommitRaisesStepCount are met: each clause applies to a state. -/
theorem test_CommitRaisesStepCount_met (h : Claims.CommitRaisesStepCount) :
    Done (.commit 0) atCommitRaisesStepCount1
    ∧ Done (.commit 0) released0
    ∧ Done (.abort 0) released0 := by
  refine ⟨done ((h 0 atCommitRaisesStepCount1).1 ?_ ?_ (Or.inl rfl)),
    done ((h 0 released0).2.1 ?_ ?_),
    done ((h 0 released0).2.2 ?_)⟩ <;> decide +kernel

def atAbortClearsStoppedStep1 : State :=
  (with0 { st := .stopped, step := 5, dl := 3, armed := true, trk := 2, barriers := [{}] }).setCell 0 { tokens := [(1, 2)] }

/-- The hypotheses of AbortClearsStoppedStep are met: each clause applies to a state. -/
theorem test_AbortClearsStoppedStep_met (h : Claims.AbortClearsStoppedStep) :
    Done (.abort 0) atAbortClearsStoppedStep1 := by
  refine done (h 0 atAbortClearsStoppedStep1 ?_) <;> decide +kernel

/-- The hypotheses of StepCountAndDeadlineWrites are met: each clause applies to a state. -/
theorem test_StepCountAndDeadlineWrites_met (h : Claims.StepCountAndDeadlineWrites) :
    Done (.seqStepWrite 0 false 7) boundary0
    ∧ Done (.seqStepWrite 0 true 7) released0
    ∧ Done (.ptmDlWrite 0 false 7) boundary0
    ∧ Done (.ptmDlWrite 0 true 7) released0 := by
  refine ⟨done ((h 0 7 8 boundary0).1 ?_),
    done ((h 0 7 8 released0).2.1 true ?_),
    done ((h 0 7 8 boundary0).2.2.1 ?_),
    done ((h 0 7 8 released0).2.2.2 true ?_)⟩ <;> decide +kernel

def atBindWriteReachesRectangle1 : State := with0 { st := .released, bset := 0, bwSlot := 0x10005, bwCells := 0x10421 }
def atBindWriteReachesRectangle2 : State := with0 { st := .released, bset := 1, bwSlot := 0x1FFFF }

/-- The hypotheses of BindWriteReachesRectangle are met: each clause applies to a state. -/
theorem test_BindWriteReachesRectangle_met (h : Claims.BindWriteReachesRectangle) :
    Done (.bindWrite 0 7) atBindWriteReachesRectangle1
    ∧ Done (.bindWrite 0 7) atBindWriteReachesRectangle2
    ∧ Done (.bindWriteEnd 0) (with0 { bwBusy := true }) := by
  refine ⟨done ((h 0 7 atBindWriteReachesRectangle1).1 ?_),
    done ((h 0 7 atBindWriteReachesRectangle2).2.1 ?_ ?_),
    done ((h 0 7 (with0 { bwBusy := true })).2.2 )⟩ <;> decide +kernel

def atBundleIssuesReadyPartitions1 : State := running0.setPart 0 { running0.part 0 with prefetch := le 8 1 ++ le 16 0x1F ++ zeros 40 }
def atBundleIssuesReadyPartitions2 : State :=
  running0.setPart 0 { running0.part 0 with idleLeft := 3, prefetch := le 8 1 ++ le 16 0x1F ++ zeros 40 }

/-- The hypotheses of BundleIssuesReadyPartitions are met: each clause applies to a state. -/
theorem test_BundleIssuesReadyPartitions_met (h : Obligations.BundleIssuesReadyPartitions) :
    Done .bundleIssue boundary0
    ∧ Done .bundleIssue atBundleIssuesReadyPartitions1
    ∧ Done .bundleIssue atBundleIssuesReadyPartitions2 := by
  refine ⟨done ((h boundary0 ?_).1 ?_),
    done ((h atBundleIssuesReadyPartitions1 ?_).2 (⟨0, by decide +kernel⟩)),
    done ((h atBundleIssuesReadyPartitions2 ?_).2 (⟨0, by decide +kernel⟩))⟩ <;> decide +kernel

def atPlateFetchFillsPrefetch1 : State := running0.panWrite 0 (le 8 1 ++ le 16 0x1F)

/-- The hypotheses of PlateFetchFillsPrefetch are met: each clause applies to a state. -/
theorem test_PlateFetchFillsPrefetch_met (h : Claims.PlateFetchFillsPrefetch) :
    Done (.plateFetch 0) atPlateFetchFillsPrefetch1
    ∧ Done (.plateFetch 0) boundary0 := by
  refine ⟨done ((h 0 atPlateFetchFillsPrefetch1).1 { pages := [0], segBytes := 200 } ?_ ?_ ?_ ?_ ?_ ?_),
    kept ((h 0 boundary0).2 (Or.inr (Or.inl ?_)))⟩ <;> decide +kernel

def atSegmentAcceptMovesDescriptors1 : State :=
  cellIs 33 { segBuf := [(4, [desc [(0, 3), (6, 0), (11, 31), (16, 0), (21, 31)], desc [(0, 3), (6, 5), (11, 6)]])] }

/-- The hypotheses of SegmentAcceptMovesDescriptors are met: each clause applies to a state. -/
theorem test_SegmentAcceptMovesDescriptors_met (h : Claims.SegmentAcceptMovesDescriptors) :
    Done (.segmentAccept 33) atSegmentAcceptMovesDescriptors1 := by
  refine done (h 33 0 4 [desc [(0, 3), (6, 0), (11, 31), (16, 0), (21, 31)], desc [(0, 3), (6, 5), (11, 6)]] []
    atSegmentAcceptMovesDescriptors1 ?_ ?_ ?_) <;> decide +kernel

def atOperationStartTakesTokenAndTracker1 : State := queued 13 (desc [(0, 7), (63, 1), (59, 2), (128, 1)])

/-- The hypotheses of OperationStartTakesTokenAndTracker are met: each clause applies to a state. -/
theorem test_OperationStartTakesTokenAndTracker_met (h : Claims.OperationStartTakesTokenAndTracker) :
    Done (.operationStart 1 13) atOperationStartTakesTokenAndTracker1 := by
  refine done (h 1 13 0 3 [] { id := 3, desc := desc [(0, 7), (63, 1), (59, 2), (128, 1)] } atOperationStartTakesTokenAndTracker1 ?_ ?_
    ?_ ?_ ?_ ?_ ?_ ?_ ?_) <;> decide +kernel

def atOperationCompletionPostsToken1 : State :=
  (cellIs 1 { ops := [{ id := 3, desc := desc [(0, 3), (58, 1), (54, 2)], worked := [4], started := [4] }], tokens := [(2, 62)] })
def atOperationCompletionPostsToken2 : State := cellIs 1 { ops := [{ id := 3, desc := desc [(0, 7)], worked := [13] }] }

/-- The hypotheses of OperationCompletionPostsToken are met: each clause applies to a state. -/
theorem test_OperationCompletionPostsToken_met (h : Claims.OperationCompletionPostsToken) :
    Done (.operationComplete 1 3) atOperationCompletionPostsToken1
    ∧ Done (.moveAcknowledge 1 3) atOperationCompletionPostsToken2 := by
  refine ⟨done ((h 1 3 0 { id := 3, desc := desc [(0, 3), (58, 1), (54, 2)], worked := [4], started := [4] }
    atOperationCompletionPostsToken1 ?_ ?_).1 ?_ ?_ ?_ ?_),
    done ((h 1 3 0 { id := 3, desc := desc [(0, 7)], worked := [13] } atOperationCompletionPostsToken2 ?_ ?_).2 ?_ ?_)⟩ <;>
      decide +kernel

def atBarriersPendCompleteAndStagger1 : State := with0 { st := .released, seqq := [(4, desc [(0, 9), (32, 1), (33, 6)])] }
def atBarriersPendCompleteAndStagger2 : State := with0 { st := .released, bc1 := 1, barriers := [{ seg := 4, bid := 6, stagger := true }] }
def atBarriersPendCompleteAndStagger3 : State :=
  { with0 { st := .released, bc1 := 1, barriers := [{ seg := 4, bid := 6, stagger := true, done := true, at_ := 10, released := 1 }] } with
    seqCycle := 18 }

/-- The hypotheses of BarriersPendCompleteAndStagger are met: each clause applies to a state. -/
theorem test_BarriersPendCompleteAndStagger_met (h : Claims.BarriersPendCompleteAndStagger) :
    Done (.barrier 0) atBarriersPendCompleteAndStagger1
    ∧ Done (.barrierComplete 0) atBarriersPendCompleteAndStagger2
    ∧ Done (.staggerRelease 0) atBarriersPendCompleteAndStagger3 := by
  refine ⟨done ((h 0 atBarriersPendCompleteAndStagger1 ?_).1 4 (desc [(0, 9), (32, 1), (33, 6)]) [] ?_ ?_),
    done ((h 0 atBarriersPendCompleteAndStagger2 ?_).2.1 { seg := 4, bid := 6, stagger := true } [] ?_ ?_ ?_),
    done ((h 0 atBarriersPendCompleteAndStagger3 ?_).2.2 { seg := 4, bid := 6, stagger := true, done := true, at_ := 10, released := 1 }
      [] ?_ ?_ ?_ ?_)⟩ <;> decide +kernel

def atLimiterGrantsAtMostSixteen1 : State :=
  { (queued 2 (desc [(0, 1), (32, 4)])) with seqCycle := 20, blocks := [(0, { grants := [12, 13] })] }
def atLimiterGrantsAtMostSixteen2 : State :=
  { (queued 2 (desc [(0, 1), (32, 4)])) with seqCycle := 20, blocks := [(0, { grants := List.replicate 16 13 })] }

/-- The hypotheses of LimiterGrantsAtMostSixteen are met: each clause applies to a state. -/
theorem test_LimiterGrantsAtMostSixteen_met (h : Claims.LimiterGrantsAtMostSixteen) :
    Done (.limiterGrant 0) atLimiterGrantsAtMostSixteen1
    ∧ Done (.limiterGrant 0) atLimiterGrantsAtMostSixteen2 := by
  refine ⟨done ((h 0 0 atLimiterGrantsAtMostSixteen1 ?_ ?_).1 ?_ (⟨1, 2, by decide +kernel⟩)),
    kept ((h 0 0 atLimiterGrantsAtMostSixteen2 ?_ ?_).2 ?_)⟩ <;> decide +kernel

def atPhaseAndEndOfPlate1 : State := running0.setPart 0 { running0.part 0 with seqq := [(4, desc [(0, 10)])] }
def atPhaseAndEndOfPlate2 : State := running0.setPart 0 { running0.part 0 with seqq := [(4, desc [(0, 10), (32, 8), (36, 0xFFF)])] }
def atPhaseAndEndOfPlate3 : State := running0.setPart 0 { running0.part 0 with
  plates := [(1, some { pages := [0], segBytes := 200, rampOff := 256 })], seqq := [(4, desc [(0, 10), (32, 5), (36, 2)])] }
def atPhaseAndEndOfPlate4 : State := running0.setPart 0 { running0.part 0 with seqq := [(4, desc [(0, 0x1F)])], issued := true }

/-- The hypotheses of PhaseAndEndOfPlate are met: each clause applies to a state. -/
theorem test_PhaseAndEndOfPlate_met (h : Claims.PhaseAndEndOfPlate) :
    Done (.phase 0) atPhaseAndEndOfPlate1
    ∧ Done (.phase 0) atPhaseAndEndOfPlate2
    ∧ Done (.phase 0) atPhaseAndEndOfPlate3
    ∧ Done (.endPlate 0) atPhaseAndEndOfPlate4 := by
  refine ⟨done ((h 0 4 (desc [(0, 10)]) [] atPhaseAndEndOfPlate1 ?_ ?_).1 ?_ (Or.inl ?_)),
    done ((h 0 4 (desc [(0, 10), (32, 8), (36, 0xFFF)]) [] atPhaseAndEndOfPlate2 ?_ ?_).2.1 ?_ ?_ ?_ ?_),
    done ((h 0 4 (desc [(0, 10), (32, 5), (36, 2)]) [] atPhaseAndEndOfPlate3 ?_ ?_).2.2.1
      { pages := [0], segBytes := 200, rampOff := 256 } ?_ ?_ ?_ ?_ ?_ ?_),
    done ((h 0 4 (desc [(0, 0x1F)]) [] atPhaseAndEndOfPlate4 ?_ ?_).2.2.2 ?_ ?_)⟩ <;> decide +kernel

def atStepCompletionStampsDone1 : State := running0.setPart 0 { running0.part 0 with
  seqq := [(4, desc [(0, 0x1F)])], issued := true, endWait := true, dl := 999999, armed := true }
def atStepCompletionStampsDone2 : State := running0.setPart 0 { running0.part 0 with
  seqq := [(4, desc [(0, 0x1F)])], issued := true, endWait := true
  plates := [(1, some { pages := [0], segBytes := 200, pinned := true })] }
def atStepCompletionStampsDone3 : State := running0.setPart 0 { running0.part 0 with seqq := [(4, desc [(0, 0x1F)])], issued := true }

/-- The hypotheses of StepCompletionStampsDone are met: each clause applies to a state. -/
theorem test_StepCompletionStampsDone_met (h : Claims.StepCompletionStampsDone) :
    Done (.stepCompletion 0) atStepCompletionStampsDone1
    ∧ Done (.stepCompletion 0) atStepCompletionStampsDone2
    ∧ Done (.stepCompletion 0) atStepCompletionStampsDone3 := by
  refine ⟨done ((h 0 4 (desc [(0, 0x1F)]) [] atStepCompletionStampsDone1 ?_ ?_).1 ?_ ?_),
    done ((h 0 4 (desc [(0, 0x1F)]) [] atStepCompletionStampsDone2 ?_ ?_).2.1 ?_ ?_),
    kept ((h 0 4 (desc [(0, 0x1F)]) [] atStepCompletionStampsDone3 ?_ ?_).2.2 ?_)⟩ <;> decide +kernel

def atWatchdogsStopAndReport1 : State := with0 { st := .released, quiet := 5000, armed := true, dl := 999999 }
def atWatchdogsStopAndReport2 : State := with0 { st := .released, quiet := 4999, armed := true, dl := 1000000 }

/-- The hypotheses of WatchdogsStopAndReport are met: each clause applies to a state. -/
theorem test_WatchdogsStopAndReport_met (h : Claims.WatchdogsStopAndReport) :
    Done (.stall 0) atWatchdogsStopAndReport1
    ∧ Done (.stall 0) atWatchdogsStopAndReport2
    ∧ Done (.deadlineMiss 0) atWatchdogsStopAndReport1
    ∧ Done (.deadlineMiss 0) atWatchdogsStopAndReport2 := by
  refine ⟨done ((h 0 atWatchdogsStopAndReport1 ?_).1 ?_ ?_),
    kept ((h 0 atWatchdogsStopAndReport2 ?_).2.1 ?_),
    done ((h 0 atWatchdogsStopAndReport1 ?_).2.2.1 ?_ ?_ ?_ ?_),
    kept ((h 0 atWatchdogsStopAndReport2 ?_).2.2.2 (Or.inl ?_))⟩ <;> decide +kernel

/-- `s` with some lanes of vector registers 1 to 3 of cell 1 written. -/
def withLanes (s : State) : State :=
  { s with mem := { s.mem with vreg := [(4224, 0x40400000), (4225, 0x3F800001), (4227, 0xC0A00000), (4352, 0x40000000), (4353, 2),
    (4354, 0x7F800000), (4480, 1), (4481, 0xFFFFFFFF)] } }

/-- A VEC of cell 1 from registers 1, 2 and 3 to register 4, with five valid lanes. -/
def vec (cls func : Nat) (l : List (Nat × Nat)) : Desc :=
  desc ([(0, 3), (32, cls), (35, func), (64, 4), (69, 1), (74, 2), (79, 3), (84, 5)] ++ l)

/-- The operation that `started` puts in the cell. -/
def opOf (u : Nat) (d : Desc) : CellOp := { id := 3, desc := d, started := [u], trk := Dsc.tracked d }

def vecState (cls func : Nat) (l : List (Nat × Nat)) : State := withLanes (started 4 (vec cls func l))

/-- A DATA frame with a payload of ten bytes. -/
def fr5 : Bytes := [5] ++ zeros 15 ++ le 4 10 ++ zeros 12 ++ [1, 2, 3, 4, 5, 6, 7, 8, 9, 10]

/-- The hypotheses of VecIntegerLanes are met: each clause applies to a state. -/
theorem test_VecIntegerLanes_met (h : Claims.VecIntegerLanes) :
    Done (.vecInteger 1) (vecState 1 3 []) := by
  refine done (h 1 0 (opOf 4 (vec 1 3 [])) (vecState 1 3 []) ?_ ?_) <;> decide +kernel

/-- The hypotheses of VecFloatLanes are met: each clause applies to a state. -/
theorem test_VecFloatLanes_met (h : Claims.VecFloatLanes) :
    Done (.vecSimpleFp32 1) (vecState 0 3 [])
    ∧ Done (.vecDivideRoot 1) (vecState 3 1 [])
    ∧ Done (.vecElementary 1) (vecState 4 1 []) := by
  refine ⟨done ((h 1 0 (opOf 4 (vec 0 3 [])) (vecState 0 3 []) ?_).1 ?_),
    done ((h 1 0 (opOf 4 (vec 3 1 [])) (vecState 3 1 []) ?_).2.1 ?_),
    done ((h 1 0 (opOf 4 (vec 4 1 [])) (vecState 4 1 []) ?_).2.2 ?_)⟩ <;> decide +kernel

/-- The hypotheses of VecConversionReductionMovement are met: each clause applies to a state. -/
theorem test_VecConversionReductionMovement_met (h : Claims.VecConversionReductionMovement) :
    Done (.vecConversion 1) (vecState 2 1 [])
    ∧ Done (.vecReduction 1) (vecState 5 1 [])
    ∧ Done (.vecMovement 1) (vecState 6 1 []) := by
  refine ⟨done ((h 1 0 (opOf 4 (vec 2 1 [])) (vecState 2 1 []) ?_ ?_).1 ?_),
    done ((h 1 0 (opOf 4 (vec 5 1 [])) (vecState 5 1 []) ?_ ?_).2.1 ?_),
    done ((h 1 0 (opOf 4 (vec 6 1 [])) (vecState 6 1 []) ?_ ?_).2.2 ?_)⟩ <;> decide +kernel

def atVecMemoryLoadsAndStores1 : State := (vecState 7 0 [(39, 3)]).ssWrite 262144 [1, 2, 3, 4, 0x40, 0x40, 0x80, 0xBF, 0, 0x7F]
def atVecMemoryLoadsAndStores2 : State := (vecState 7 1 [(39, 3)]).ssWrite 262144 [1, 2, 3, 4, 0x40, 0x40, 0x80, 0xBF, 0, 0x7F]

/-- The hypotheses of VecMemoryLoadsAndStores are met: each clause applies to a state. -/
theorem test_VecMemoryLoadsAndStores_met (h : Claims.VecMemoryLoadsAndStores) :
    Done (.vecMemory 1) atVecMemoryLoadsAndStores1
    ∧ Done (.vecMemory 1) atVecMemoryLoadsAndStores2 := by
  refine ⟨done ((h 1 0 (opOf 4 (vec 7 0 [(39, 3)])) atVecMemoryLoadsAndStores1 ?_ ?_ ?_).1 ?_ ?_),
    done ((h 1 0 (opOf 4 (vec 7 1 [(39, 3)])) atVecMemoryLoadsAndStores2 ?_ ?_ ?_).2 ?_)⟩ <;> decide +kernel

def atMatmulAccumulatesTile1 : State :=
  ((((started 2 (desc [(0, 1), (5, 1), (32, 4), (38, 1), (42, 1), (98, 32), (114, 1), (119, 2), (81, 100)])).ssWrite 262144 [1, 2, 3, 4, 0x40, 0x40, 0x38])).ssWrite 265344 [0x38, 0x30, 0x40]).setMem (fun m => { m with
    acc := [(12 * 1024, 0x3F800000), (12289, 0x40000000), (11000, 7)] })

/-- The hypotheses of MatmulAccumulatesTile are met: each clause applies to a state. -/
theorem test_MatmulAccumulatesTile_met (h : Claims.MatmulAccumulatesTile) :
    Done (.matmul 1 2) atMatmulAccumulatesTile1 := by
  refine done (h 1 2 0 (opOf 2 (desc [(0, 1), (5, 1), (32, 4), (38, 1), (42, 1), (98, 32), (114, 1), (119, 2), (81, 100)]))
    atMatmulAccumulatesTile1 ?_ ?_ ?_ ?_) <;> decide +kernel

def atDrainWritesConvertedTile1 : State := (started 2 (desc [(0, 2), (32, 4), (38, 3), (64, 100)])).setMem (fun m => { m with
  acc := [(12 * 1024, 0x3F800000), (12289, 0x40000000), (11000, 7)] })

/-- The hypotheses of DrainWritesConvertedTile are met: each clause applies to a state. -/
theorem test_DrainWritesConvertedTile_met (h : Claims.DrainWritesConvertedTile) :
    Done (.drain 1 2) atDrainWritesConvertedTile1 := by
  refine done (h 1 2 0 (opOf 2 (desc [(0, 2), (32, 4), (38, 3), (64, 100)])) atDrainWritesConvertedTile1 ?_) <;> decide +kernel

def atPanPortsMoveUnits1 : State :=
  (started 6 (desc [(0, 4), (32, 1), (35, 2), (64, 4095), (77, 8191), (96, 1)])).panWrite ((130 + 32) * 131072 + 131070) [7, 9]
def atPanPortsMoveUnits2 : State := (started 6 (desc [(0, 5), (32, 1), (35, 2), (64, 4095), (77, 8191), (96, 1)])).ssWrite 524286 [7, 9]

/-- The hypotheses of PanPortsMoveUnits are met: each clause applies to a state. -/
theorem test_PanPortsMoveUnits_met (h : Obligations.PanPortsMoveUnits) :
    Done (.panrd 1 1) atPanPortsMoveUnits1
    ∧ Done (.panwr 1 1) atPanPortsMoveUnits2 := by
  refine ⟨done ((h 1 1 0 (opOf 6 (desc [(0, 4), (32, 1), (35, 2), (64, 4095), (77, 8191), (96, 1)])) atPanPortsMoveUnits1).1 ?_ ?_),
    done ((h 1 1 0 (opOf 6 (desc [(0, 5), (32, 1), (35, 2), (64, 4095), (77, 8191), (96, 1)])) atPanPortsMoveUnits2).2 ?_ ?_)⟩ <;>
      decide +kernel

def atMoveWritesEveryDestination1 : State :=
  (started 13 (desc [(0, 7), (32, 1), (41, 0), (47, 2), (64, 3), (96, 8190), (128, 2), (141, 1), (146, 3)])).ssWrite (262144 + 96) [5, 6,
    7]

/-- The hypotheses of MoveWritesEveryDestination are met: each clause applies to a state. -/
theorem test_MoveWritesEveryDestination_met (h : Claims.MoveWritesEveryDestination) :
    Done (.move 1) atMoveWritesEveryDestination1 := by
  refine done (h 1 0 (opOf 13 (desc [(0, 7), (32, 1), (41, 0), (47, 2), (64, 3), (96, 8190), (128, 2), (141, 1), (146, 3)]))
    atMoveWritesEveryDestination1 ?_ ?_ ?_ ?_ ?_) <;> decide +kernel

def atColdHarvestsAndFloods1 : State :=
  (({ (started 13 (desc [(0, 8), (32, 1), (33, 2), (64, 4), (80, 9)])).setPart 0 { released0.part 0 with ctxs := [(3, { st := .opened, key := some 77 })] } with
    ddr := [(0, { owner := some 0 })], tenants := [(0, { present := true })] }).setMem (fun m => { m with bind := [(131072 + 9, BitVec.ofNat 256 (2 + 8 * 6 + 3 * 2 ^ 24))] })).panWrite (196 * 131072 + 5) [3, 4]
def atColdHarvestsAndFloods2 : State :=
  (({ (started 13 (desc [(0, 8), (32, 0), (33, 2), (64, 4), (80, 9)])).setPart 0 { released0.part 0 with ctxs := [(3, { st := .opened, key := some 77 })] } with
    ddr := [(0, { owner := some 0 })], tenants := [(0, { present := true })] }).setMem (fun m => { m with bind := [(131072 + 9, BitVec.ofNat 256 (2 + 8 * 6 + 3 * 2 ^ 24))] })).coldStore 77 (6 * 131072) [3, 4]

/-- The hypotheses of ColdHarvestsAndFloods are met: each clause applies to a state. -/
theorem test_ColdHarvestsAndFloods_met (h : Claims.ColdHarvestsAndFloods) :
    Done (.cold 1) atColdHarvestsAndFloods1
    ∧ Done (.cold 1) atColdHarvestsAndFloods2 := by
  refine ⟨done ((h 1 0 77 (opOf 13 (desc [(0, 8), (32, 1), (33, 2), (64, 4), (80, 9)])) atColdHarvestsAndFloods1 ?_ ?_).1 ?_ ?_),
    done ((h 1 0 77 (opOf 13 (desc [(0, 8), (32, 0), (33, 2), (64, 4), (80, 9)])) atColdHarvestsAndFloods2 ?_ ?_).2 ?_ ?_)⟩ <;>
      decide +kernel

def atStrinTakesNextFrame1 : State := (({ started 13 (desc [(0, 11), (32, 9), (64, 3), (77, 4)]) with
  fns := [(1, {})] })).setMem (fun m => { m with bind := [(131072 + 9, BitVec.ofNat 256 (3 + 8 * 6))] })
def atStrinTakesNextFrame2 : State := (({ started 13 (desc [(0, 11), (32, 9), (64, 3), (77, 4)]) with
  fns := [(1, {
    inch := [(6, {
      configured := true, next := 5
      entries := [{ used := true, frame := fr5 }, { seq := 4, pos := 2, units := 2, frame := fr5 }] })] })] })).setMem (fun m => { m with bind := [(131072 + 9, BitVec.ofNat 256 (3 + 8 * 6))] })

/-- The hypotheses of StrinTakesNextFrame are met: each clause applies to a state. -/
theorem test_StrinTakesNextFrame_met (h : Claims.StrinTakesNextFrame) :
    Done (.strin 1) atStrinTakesNextFrame1
    ∧ Done (.strin 1) atStrinTakesNextFrame2 := by
  refine ⟨kept ((h 1 0 (opOf 13 (desc [(0, 11), (32, 9), (64, 3), (77, 4)])) atStrinTakesNextFrame1 ?_ ?_).1 ?_),
    done ((h 1 0 (opOf 13 (desc [(0, 11), (32, 9), (64, 3), (77, 4)])) atStrinTakesNextFrame2 ?_ ?_).2
      { seq := 4, pos := 2, units := 2, frame := fr5 } ?_ (by rfl))⟩ <;> decide +kernel

def atStroutHandsFrameToEgress1 : State :=
  ((((started 13 (desc [(0, 12), (32, 9), (64, 3), (77, 5)])).ssWrite (262144 + 96) [1, 2, 3, 4, 5, 6]).setMem (fun m => { m with
    bind := [(131072 + 9, BitVec.ofNat 256 (4 + 8 * 6 + 2048 * 3 + 2 ^ 17))] }))).setFn 1 { egress := List.replicate 4 { payload := zeros 65500 } }
def atStroutHandsFrameToEgress2 : State :=
  (((started 13 (desc [(0, 12), (32, 9), (64, 3), (77, 5)])).ssWrite (262144 + 96) [1, 2, 3, 4, 5, 6]).setMem (fun m => { m with
    bind := [(131072 + 9, BitVec.ofNat 256 (4 + 8 * 6 + 2048 * 3 + 2 ^ 17))] })).setPart 0 { released0.part 0 with failed := true }
def atStroutHandsFrameToEgress3 : State :=
  ((started 13 (desc [(0, 12), (32, 9), (64, 3), (77, 5)])).ssWrite (262144 + 96) [1, 2, 3, 4, 5, 6]).setMem (fun m => { m with
    bind := [(131072 + 9, BitVec.ofNat 256 (4 + 8 * 6 + 2048 * 3 + 2 ^ 17))] })

/-- The hypotheses of StroutHandsFrameToEgress are met: each clause applies to a state. -/
theorem test_StroutHandsFrameToEgress_met (h : Claims.StroutHandsFrameToEgress) :
    Done (.strout 1) atStroutHandsFrameToEgress1
    ∧ Done (.strout 1) atStroutHandsFrameToEgress2
    ∧ Done (.strout 1) atStroutHandsFrameToEgress3 := by
  refine ⟨kept ((h 1 0 (opOf 13 (desc [(0, 12), (32, 9), (64, 3), (77, 5)])) atStroutHandsFrameToEgress1 ?_ ?_).1 ?_),
    kept ((h 1 0 (opOf 13 (desc [(0, 12), (32, 9), (64, 3), (77, 5)])) atStroutHandsFrameToEgress2 ?_ ?_).2.1 ?_),
    done ((h 1 0 (opOf 13 (desc [(0, 12), (32, 9), (64, 3), (77, 5)])) atStroutHandsFrameToEgress3 ?_ ?_).2.2 ?_ ?_ ?_)⟩ <;>
      decide +kernel

def atGatherServesItsSlots1 : State :=
  ((((started 10 (desc [(0, 6), (32, 2), (36, 1), (39, 3), (64, 9), (80, 1), (96, 10), (109, 100)])).ssWrite (262144 + 320) (le 2 32 ++ le 2 3 ++ le 2 0 ++ le 2 5 ++ [1, 1] ++ zeros 22)).ssWrite (262144 + 3200) [7, 8, 9, 10, 11]).setMem (fun m => { m with
    bind := [(131072 + 9, BitVec.ofNat 256 (1 + 2 ^ 18 * 128))] })).setPan 4 { copying := [0] }
def atGatherServesItsSlots2 : State :=
  ((started 10 (desc [(0, 6), (32, 2), (36, 1), (39, 3), (64, 9), (80, 1), (96, 10), (109, 100)])).ssWrite (262144 + 320) (le 2 32 ++ le 2
    3 ++ le 2 0 ++ le 2 5 ++ [1, 1] ++ zeros 22)).ssWrite (262144 + 3200) [7, 8, 9, 10, 11]

/-- The hypotheses of GatherServesItsSlots are met: each clause applies to a state. -/
theorem test_GatherServesItsSlots_met (h : Obligations.GatherServesItsSlots) :
    Done (.gather 1 1) atGatherServesItsSlots1
    ∧ Done (.gather 1 1) atGatherServesItsSlots2
    ∧ Done (.gather 1 1) atGatherServesItsSlots2 := by
  refine ⟨kept ((h 1 1 0 (opOf 10 (desc [(0, 6), (32, 2), (36, 1), (39, 3), (64, 9), (80, 1), (96, 10), (109, 100)]))
    atGatherServesItsSlots1 ?_).1 ?_),
    done ((h 1 1 0 (opOf 10 (desc [(0, 6), (32, 2), (36, 1), (39, 3), (64, 9), (80, 1), (96, 10), (109, 100)])) atGatherServesItsSlots2
      ?_).2.1 ((Lane.sequences 0 1 1 3 9 (desc [(0, 6), (32, 2), (36, 1), (39, 3), (64, 9), (80, 1), (96, 10), (109, 100)]) (List.range
      1) (10, 100) atGatherServesItsSlots2).toOption.getD atGatherServesItsSlots2) ?_ (by rfl)),
    done ((h 1 1 0 (opOf 10 (desc [(0, 6), (32, 2), (36, 1), (39, 3), (64, 9), (80, 1), (96, 10), (109, 100)])) atGatherServesItsSlots2
      ?_).2.2 ?_ ?_ ?_ ?_ ?_ ?_ ?_ ?_ ?_ ?_ ?_ ?_ ?_ ?_ ?_)⟩ <;> decide +kernel

def atPatrolReadAdvancesAndCorrects1 : State := (boundary0.setBlock 0 { on := true }).setCell 7 { beats := 129 }
def atPatrolReadAdvancesAndCorrects2 : State := ((with0 {}).setBlock 0 { on := true }).setCell 7 { beats := 128 }
def atPatrolReadAdvancesAndCorrects3 : State :=
  (((with0 {}).setBlock 0 { on := true }).setCell 7 { beats := 128 }).setPan 31 { patrol := 131071 }

/-- The hypotheses of PatrolReadAdvancesAndCorrects are met: each clause applies to a state. -/
theorem test_PatrolReadAdvancesAndCorrects_met (h : Claims.PatrolReadAdvancesAndCorrects) :
    Done (.panPatrolRead 31 [.clean]) atPatrolReadAdvancesAndCorrects1
    ∧ Done (.panPatrolRead 31 [.clean, .clean]) atPatrolReadAdvancesAndCorrects2
    ∧ Done (.panPatrolRead 31 [.corrected]) atPatrolReadAdvancesAndCorrects3 := by
  refine ⟨kept ((h 31 [.clean] atPatrolReadAdvancesAndCorrects1 ?_ ?_ ?_).1 (Or.inl ?_)),
    done (((h 31 [.clean, .clean] atPatrolReadAdvancesAndCorrects2 ?_ ?_ ?_).2 ?_ ?_ ?_ ?_).1 ?_ ?_),
    done (((h 31 [.clean] atPatrolReadAdvancesAndCorrects3 ?_ ?_ ?_).2 ?_ ?_ ?_ ?_).2 ?_ ?_)⟩ <;> decide +kernel

def atRowCopyZeroesLostCodewords1 : State :=
  ((boundary0.setPan 31 { copying := [7 * 512 + 17] }).panWrite ((32 * 31 + 1) * 131072 + 32 * (256 + 7)) [1, 2, 3, 4, 5, 6, 7, 8,
    9]).setMem (fun m => { m with panErr := [(((32 * 31 + 1) * 131072 + 32 * (256 + 7)) / 8, 2)] })

/-- The hypotheses of RowCopyZeroesLostCodewords are met: each clause applies to a state. -/
theorem test_RowCopyZeroesLostCodewords_met (h : Claims.RowCopyZeroesLostCodewords) :
    Done (.rowCopyComplete 31 7 17) atRowCopyZeroesLostCodewords1 := by
  refine done (h 31 7 17 atRowCopyZeroesLostCodewords1 ?_ ?_ ?_) <;> decide +kernel

def atCellRepairRemapsRow1 : State := (released0.setPart 1 { present := true, bc0 := 1, bc1 := 1 }).setCell 5 { beats := 3 }
def atCellRepairRemapsRow2 : State := { released0 with bru := { rdy.bru with defects := [(0, [3, 20])] } }

/-- The hypotheses of CellRepairRemapsRow are met: each clause applies to a state. -/
theorem test_CellRepairRemapsRow_met (h : Claims.CellRepairRemapsRow) :
    Done (.cellRepair 5 1) atCellRepairRemapsRow1
    ∧ Done (.cellRepair 5 1) atCellRepairRemapsRow2 := by
  refine ⟨done ((h 5 1 atCellRepairRemapsRow1 ?_).1 ?_),
    done ((h 5 1 atCellRepairRemapsRow2 ?_).2 ?_)⟩ <;> decide +kernel

def atAgeingTrimAndResend1 : State := (boundary0.setCell 5 { ageFails := 7 }).setBlock 0 { on := true, point := 6 }

/-- The hypotheses of AgeingTrimAndResend are met: each clause applies to a state. -/
theorem test_AgeingTrimAndResend_met (h : Claims.AgeingTrimAndResend) :
    Done (.ageingCheck 5 false) atAgeingTrimAndResend1
    ∧ Done (.ageingCheck 5 true) atAgeingTrimAndResend1
    ∧ Done (.oscillatorTrim 5 7) atAgeingTrimAndResend1
    ∧ Done (.meshFlitResend 5 1) atAgeingTrimAndResend1 := by
  refine ⟨done (((h 5 0 false atAgeingTrimAndResend1 ?_).1 ?_ ?_ ?_).1 ?_),
    done (((h 5 0 true atAgeingTrimAndResend1 ?_).1 ?_ ?_ ?_).2 ?_ ?_ ?_ ?_ ?_),
    done ((h 5 0 true atAgeingTrimAndResend1 ?_).2.1 7 ?_),
    done ((h 5 0 true atAgeingTrimAndResend1 ?_).2.2 1 6 ?_ ?_ ?_)⟩ <;> decide +kernel

/-- Partition 0 at its boundary with plate 1 loaded and a decision to release it. -/
def decided0 : State := with0 {
  plates := [(1, some { pages := [0], segBytes := 200 })], step := 5, decision := some { step := 5, list := [1] } }

/-- Partition 0 of tenant 0, whose log ring has a page. -/
def logged0 (x : Part) : State :=
  { with0 { x with plog := { first := 8, pages := 1 }, step := 5 } with tenants := [(0, { present := true, key := some 3 })] }

/-- One command at the front of function `f`. -/
def asked (f opc : Nat) (params : Bytes) (s : State) : State :=
  s.setFn f { s.fn f with cmds := [{ seq := 9, payload := le 2 opc ++ zeros 6 ++ params }] }
def cmd (opc : Nat) (params : Bytes) : Cmd := { seq := 9, payload := le 2 opc ++ zeros 6 ++ params }

/-- Bytes that wait in the input buffer of a function on port 0. -/
def inbuf (f : Nat) (b : Bytes) (s : State) : State := s.setHp 0 f { s.hp 0 f with inbuf := b }

theorem opened {e : Except Nat Bytes} {b : Bytes} (h : (match e with | .ok a => a == b | .error _ => false) = true) :
    e = .ok b := by
  cases e with
  | ok a => simpa using h
  | error r => cases h

theorem refusedBy {e : Except Nat Bytes} {r : Nat} (h : (match e with | .ok _ => false | .error a => a == r) = true) :
    e = .error r := by
  cases e with
  | ok a => cases h
  | error a => simpa using h

/-- A command that starts. -/
theorem starts {s : State} {f opc : Nat} {c : Cmd}
    (h : (decide (f ≤ 16) && s.nextCmd f == some c && c.opc == opc && s.cmdRefusal f c == none) = true) :
    Claims.Starts s f opc c := by
  simpa [Claims.Starts, and_assoc] using h

/-- Tags and ciphertext under an all-zero key, as AES-256-GCM gives them. -/
def dataTag : Bytes := [212, 229, 9, 72, 74, 163, 45, 216, 210, 168, 194, 140, 93, 135, 147, 65]
def mirrorCipher : Bytes := [22, 58, 152, 26, 202, 248, 236, 200, 214, 144, 82, 140, 228, 220, 187, 204]
def mirrorTag : Bytes := [76, 193, 151, 253, 168, 124, 29, 62, 212, 2, 184, 65, 138, 2, 10, 8]

/-- A DATA frame without a payload, under an all-zero key. -/
def dataHeader : Bytes := [5, 1, 2, 0, 16, 0, 0, 0] ++ le 8 5 ++ zeros 16
def dataIn : State := inbuf 1 (dataHeader ++ dataTag)
  ((boundary0.setFn 1 { inch := [(2, { configured := true, next := 5, ring := { first := 8, pages := 1 } })] }).setHp 0 1 {
    vsel := 1, session := some { inKey := zeros 32, outKey := zeros 32 } })

/-- A MIRROR DECISION frame with TERM 7 and no more than its 16 bytes, under an all-zero key. -/
def mirrorHeader : Bytes := [15, 1, 0, 0, 16, 0, 0, 0] ++ le 8 5 ++ le 4 16 ++ zeros 12
def mirrorBody : Bytes := le 1 1 ++ zeros 3 ++ le 4 7 ++ le 8 4
def mirrorIn : State := inbuf 1 (mirrorHeader ++ mirrorCipher ++ mirrorTag)
  ((boundary0.setFn 1 { inch := [(0, { configured := true, next := 5, ring := { first := 8, pages := 1 } })] }).setHp 0 1 {
    vsel := 1, session := some { inKey := zeros 32, outKey := zeros 32 } })

/-- A REQUEST frame as it is logged. -/
def openFrame : Bytes := [3, 1, 2, 0, 0, 0, 0, 0] ++ le 8 5 ++ le 4 64 ++ zeros 12 ++ zeros 64

def atBoundaryReleasesDecidedStep1 : State := with0 { failed := true, step := 5, reqs := [{ chan := 1, reqSeq := 4 }] }

/-- The hypotheses of BoundaryReleasesDecidedStep are met: each clause applies to a state. -/
theorem test_BoundaryReleasesDecidedStep_met (h : Obligations.BoundaryReleasesDecidedStep) :
    Done (.boundaryProcedure 0) decided0
    ∧ Done (.boundaryProcedure 0) atBoundaryReleasesDecidedStep1
    ∧ Done (.boundaryProcedure 0) released0 := by
  refine ⟨done ((h 0 decided0).1 { step := 5, list := [1] } ?_ ?_ ?_ ?_ ?_ ?_ ?_ (noErrors rfl)),
    done ((h 0 atBoundaryReleasesDecidedStep1).2.1 ?_ ?_),
    kept ((h 0 released0).2.2 ?_)⟩ <;> decide +kernel

def atCommitRecordWrittenOnce1 : State := logged0 { st := .complete, rebuildTo := some 6 }

/-- The hypotheses of CommitRecordWrittenOnce are met: each clause applies to a state. -/
theorem test_CommitRecordWrittenOnce_met (h : Claims.CommitRecordWrittenOnce) :
    Done (.commitRecordWrite 0) (logged0 { st := .complete })
    ∧ Done (.commitRecordWrite 0) atCommitRecordWrittenOnce1 := by
  refine ⟨done ((h 0 (logged0 { st := .complete }) ?_ ?_).1 3 ?_ ?_ ?_ ?_ ?_),
    done ((h 0 atCommitRecordWrittenOnce1 ?_ ?_).2 ?_)⟩ <;> decide +kernel

def atReplayAndStandbyRelease1 : State := logged0 {
  st := .stopped, plates := [(1, some { pages := [0], segBytes := 200 })], decision := some { step := 5, list := [1] }
  recs := [{ step := 5, pos := 0, items := [LogRec.restoreItem 0] }] }
def atReplayAndStandbyRelease2 : State :=
  { (with0 { step := 5, held := [{ step := 5, list := [1] }], plates := [(1, some { pages := [0], segBytes := 200 })] }) with
    pair := { st := .standby } }

/-- The hypotheses of ReplayAndStandbyRelease are met: each clause applies to a state. -/
theorem test_ReplayAndStandbyRelease_met (h : Claims.ReplayAndStandbyRelease) :
    Done (.replay 0) atReplayAndStandbyRelease1
    ∧ Done (.replay 0) boundary0
    ∧ Done (.standbyRelease 0) atReplayAndStandbyRelease2
    ∧ Done (.standbyRelease 0) boundary0 := by
  refine ⟨done ((h 0 atReplayAndStandbyRelease1).1 ?_ ?_ (fun _ _ => noErrors rfl)),
    kept ((h 0 boundary0).2.1 ?_),
    done ((h 0 atReplayAndStandbyRelease2).2.2.1 { step := 5, list := [1] } [] ?_ ?_ ?_ ?_ ?_ ?_ ?_ (noContexts rfl) (noErrors rfl)
      (Or.inl ?_) ?_ ?_ ?_),
    kept ((h 0 boundary0).2.2.2 ?_)⟩ <;> decide +kernel

def atRebuildRestartsFromCheckpoint1 : State := with0 { st := .stopped, recover := 2, step := 5, ckpts := [{ step := 2 }] }
def atRebuildRestartsFromCheckpoint2 : State := { (with0 { step := 5 }) with bru := { rdy.bru with rebuilding := [0] } }

/-- The hypotheses of RebuildRestartsFromCheckpoint are met: each clause applies to a state. -/
theorem test_RebuildRestartsFromCheckpoint_met (h : Claims.RebuildRestartsFromCheckpoint) :
    Done (.rebuild 0) atRebuildRestartsFromCheckpoint1
    ∧ Done (.rebuild 0) atRebuildRestartsFromCheckpoint2 := by
  refine ⟨done (h 0 atRebuildRestartsFromCheckpoint1 ?_ ?_ (Or.inl ?_) ?_),
    done (h 0 atRebuildRestartsFromCheckpoint2 ?_ ?_ (Or.inr ?_) ?_)⟩ <;> decide +kernel

def atScrubCompletionFreesResource1 : State :=
  { ((with0 { ctxs := [(2, { st := .scrubbing })] }).setPte 3 (Pte.make 0 0 3 0 0 0 0 0)) with scrubs := [.ctx 0 2] }
def atScrubCompletionFreesResource2 : State :=
  { (with0 { ctxs := [(2, { st := .scrubbing, closeCmd := some 9 })] }) with scrubs := [.ctx 0 2] }
def atScrubCompletionFreesResource3 : State :=
  { ((with0 { scrub := true, deleteCmd := some 9 }).setBlock 0 { on := true }) with scrubs := [.part 0] }
def atScrubCompletionFreesResource4 : State :=
  { rdy with vpairs := [(2, { owner := some 0, scrub := true, releaseCmd := some 9 })], scrubs := [.pair 2] }

/-- The hypotheses of ScrubCompletionFreesResource are met: each clause applies to a state. -/
theorem test_ScrubCompletionFreesResource_met (h : Claims.ScrubCompletionFreesResource) :
    Done (.scrubComplete (.part 0)) rdy
    ∧ Done (.scrubComplete (.ctx 0 2)) atScrubCompletionFreesResource1
    ∧ Done (.scrubComplete (.ctx 0 2)) atScrubCompletionFreesResource2
    ∧ Done (.scrubComplete (.part 0)) atScrubCompletionFreesResource3
    ∧ Done (.scrubComplete (.pair 2)) atScrubCompletionFreesResource4 := by
  refine ⟨kept ((h (.part 0) rdy).1 ?_),
    kept (((h (.ctx 0 2) atScrubCompletionFreesResource1).2 ?_).1 0 2 ?_ ?_),
    done (((h (.ctx 0 2) atScrubCompletionFreesResource2).2 ?_).2.1 0 2 ?_ ?_),
    done (((h (.part 0) atScrubCompletionFreesResource3).2 ?_).2.2.1 0 ?_ ?_),
    done (((h (.pair 2) atScrubCompletionFreesResource4).2 ?_).2.2.2 2 ?_)⟩ <;> decide +kernel

def atApertureWordsDrainInOrder1 : State := rdy.setHp 0 3 { pos := 64, inbuf := [3], tail := 5 }

/-- The hypotheses of ApertureWordsDrainInOrder are met: each clause applies to a state. -/
theorem test_ApertureWordsDrainInOrder_met (h : Claims.ApertureWordsDrainInOrder) :
    Done (.apertureWrite 0 3 4088 [1, 2, 3, 4, 5, 6, 7, 8]) (rdy.setHp 0 3 { pos := 4088 })
    ∧ Done (.apertureWrite 1 16 4088 [1, 2, 3, 4, 5, 6, 7, 8]) (rdy.setHp 1 16 { credit := 64 })
    ∧ Done (.hpApReset 0 3) atApertureWordsDrainInOrder1 := by
  refine ⟨done ((h 0 3 4088 [1, 2, 3, 4, 5, 6, 7, 8] (rdy.setHp 0 3 { pos := 4088 }) ?_ ?_).1 ?_ ?_ ?_ ?_ ?_ ?_ ?_ ?_),
    done ((h 1 16 4088 [1, 2, 3, 4, 5, 6, 7, 8] (rdy.setHp 1 16 { credit := 64 }) ?_ ?_).2.1 ?_ ?_ ?_ ?_ ?_ ?_),
    done ((h 0 3 0 [] atApertureWordsDrainInOrder1 ?_ ?_).2.2 )⟩ <;> decide +kernel

def atRingRegistersAndSignals1 : State :=
  rdy.setHp 1 2 { size := 16, head := 7, ctl := 2, irqMod := 0x10000, irqTick := some 999900, irqPend := 1 }

/-- The hypotheses of RingRegistersAndSignals are met: each clause applies to a state. -/
theorem test_RingRegistersAndSignals_met (h : Claims.RingRegistersAndSignals) :
    Done (.ringEnWrite 1 2 0xB) atRingRegistersAndSignals1
    ∧ Done (.hpRingHeadWrite 1 2 0xB) atRingRegistersAndSignals1
    ∧ Done (.irqDelayExpiry 1 2) atRingRegistersAndSignals1
    ∧ Done (.configRequest 1 { f := 2, reg := .maxPayload, write := some 256 }) State.reset
    ∧ Done (.configRequest 1 { f := 2, reg := .maxPayload }) atRingRegistersAndSignals1
    ∧ Done (.configRequest 1 { f := 2, reg := .maxPayload, write := some 256 }) atRingRegistersAndSignals1
    ∧ Done (.configRequest 1 { f := 2, reg := .maxPayload, write := some 1024 }) atRingRegistersAndSignals1 := by
  refine ⟨done ((h 1 2 0xB atRingRegistersAndSignals1 ?_ ?_).1 ),
    done ((h 1 2 0xB atRingRegistersAndSignals1 ?_ ?_).2.1 ),
    done ((h 1 2 0xB atRingRegistersAndSignals1 ?_ ?_).2.2.1 999900 ?_ ?_ ?_ ?_),
    done ((h 1 2 0xB State.reset ?_ ?_).2.2.2.1 .maxPayload (some 256) ?_ ?_),
    done (((h 1 2 0xB atRingRegistersAndSignals1 ?_ ?_).2.2.2.2 .maxPayload (Or.inl ?_)).1 ),
    done (((h 1 2 0xB atRingRegistersAndSignals1 ?_ ?_).2.2.2.2 .maxPayload (Or.inl ?_)).2 256 ),
    done (((h 1 2 0xB atRingRegistersAndSignals1 ?_ ?_).2.2.2.2 .maxPayload (Or.inl ?_)).2 1024 )⟩ <;> decide +kernel

def atInboundFrameIsJudged1 : State := (inbuf 0 (zeros 32) rdy).setFn 0 { cmds := [{ seq := 4, port := 0, payload := le 2 1 ++ zeros 6 }] }
def atInboundFrameIsJudged2 : State := inbuf 0 (zeros 8 ++ [7] ++ zeros 31) rdy

/-- The hypotheses of InboundFrameIsJudged are met: each clause applies to a state. -/
theorem test_InboundFrameIsJudged_met (h : Claims.InboundFrameIsJudged) :
    Done (.inboundFrame 0 0) atInboundFrameIsJudged1
    ∧ Done (.inboundFrame 0 0) atInboundFrameIsJudged2
    ∧ Done (.inboundFrame 0 1) dataIn := by
  refine ⟨kept ((h 0 0 atInboundFrameIsJudged1 ?_ ?_ ?_ ?_).1 ?_),
    done (((h 0 0 atInboundFrameIsJudged2 ?_ ?_ ?_ ?_).2 ?_ ?_ ?_).1 2 (refusedBy ?_)),
    done (((h 0 1 dataIn ?_ ?_ ?_ ?_).2 ?_ ?_ ?_).2 [] (opened ?_) ?_ ?_ ?_ ?_ ?_ ?_)⟩ <;> decide +kernel

def atMirrorDecisionIsLoggedOrRefused1 : State := { mirrorIn with pair := { st := .active } }
def atMirrorDecisionIsLoggedOrRefused2 : State := { mirrorIn with pair := { st := .standby, term := 7 } }

/-- The hypotheses of MirrorDecisionIsLoggedOrRefused are met: each clause applies to a state. -/
theorem test_MirrorDecisionIsLoggedOrRefused_met (h : Obligations.MirrorDecisionIsLoggedOrRefused) :
    Done (.mirrorDecision 0 1) dataIn
    ∧ Done (.mirrorDecision 0 1) atMirrorDecisionIsLoggedOrRefused1
    ∧ Done (.mirrorDecision 0 1) atMirrorDecisionIsLoggedOrRefused2 := by
  refine ⟨kept ((h 0 1 dataIn [] ?_ ?_ ?_ ?_ ?_ ?_ ?_ ?_).1 ?_),
    done (((h 0 1 atMirrorDecisionIsLoggedOrRefused1 mirrorBody ?_ ?_ ?_ ?_ ?_ ?_ ?_ ?_).2 ?_ (opened ?_)).1 (Or.inl ?_)),
    done (((h 0 1 atMirrorDecisionIsLoggedOrRefused2 mirrorBody ?_ ?_ ?_ ?_ ?_ ?_ ?_ ?_).2 ?_ (opened ?_)).2 ?_ ?_ ?_ ?_)⟩ <;>
      decide +kernel

def atLogAckAcceptsFrame1 : State := boundary0.setFn 1 {
  inch := [(2, { configured := true, next := 5, ring := { first := 8, pages := 1, head := 3 }, writing := [(5, openFrame, 0)] })] }

/-- The hypotheses of LogAckAcceptsFrame are met: each clause applies to a state. -/
theorem test_LogAckAcceptsFrame_met (h : Claims.LogAckAcceptsFrame) :
    Done (.logEntryAck 1 2) atLogAckAcceptsFrame1 := by
  refine done (h 1 2 5 0 openFrame [] atLogAckAcceptsFrame1 ?_ ?_ ?_ ?_ ?_) <;> decide +kernel

def atEgressWritesRing1 : State := (rdy.setFn 0 {
  egress := [{ typ := 0x0E, chan := 0, payload := zeros 16, port := some 1 }] }).setHp 1 0 { ctl := 1, size := 16, tail := 65504, head := 65504 }
def atEgressWritesRing2 : State := (rdy.setFn 0 {
  egress := [{ typ := 0x0E, chan := 0, payload := zeros 16, port := some 1 }] }).setHp 1 0 { ctl := 1, size := 16, tail := 65504, head := 0 }
def atEgressWritesRing3 : State := (boundary0.setFn 1 {
  egress := [{ typ := 7, chan := 2, seq := 3 }], outch := [(2, { configured := true, ports := 1, watermark := 4 })] })

/-- The hypotheses of EgressWritesRing are met: each clause applies to a state. -/
theorem test_EgressWritesRing_met (h : Claims.EgressWritesRing) :
    Done (.egressWrite 1 0) atEgressWritesRing1
    ∧ Done (.egressWrite 1 0) atEgressWritesRing2
    ∧ Done (.egressWrite 0 1) atEgressWritesRing3 := by
  refine ⟨done ((h 1 0 { typ := 0x0E, chan := 0, payload := zeros 16, port := some 1 } atEgressWritesRing1 ?_ ?_ ?_).1 32
    (⟨by decide +kernel, by decide +kernel, by decide +kernel, by decide +kernel, Or.inl ?_⟩) ?_),
    done ((h 1 0 { typ := 0x0E, chan := 0, payload := zeros 16, port := some 1 } atEgressWritesRing2 ?_ ?_ ?_).2.1 (⟨by decide +kernel,
      by decide +kernel, by decide +kernel, by decide +kernel, Or.inl ?_⟩) ?_),
    done ((h 0 1 { typ := 7, chan := 2, seq := 3 } atEgressWritesRing3 ?_ ?_ ?_).2.2 ?_)⟩ <;> decide +kernel

def atFunctionAndPartitionReset1 : State :=
  ((with0 { st := .released, step := 5, trk := 3 }).setCell 0 { tokens := [(1, 2)] }).ssWrite 262143 [1, 2]

/-- The hypotheses of FunctionAndPartitionReset are met: each clause applies to a state. -/
theorem test_FunctionAndPartitionReset_met (h : Claims.FunctionAndPartitionReset) :
    Done (.flr 1 0) atFunctionAndPartitionReset1
    ∧ Done (.flr 1 1) atFunctionAndPartitionReset1
    ∧ Done (.partitionReset 0) atFunctionAndPartitionReset1 := by
  refine ⟨done ((h 1 1 atFunctionAndPartitionReset1 ?_).1 ),
    done ((h 1 1 atFunctionAndPartitionReset1 ?_).2.1 ?_ ?_ ?_ ?_ ?_),
    done ((h 1 1 atFunctionAndPartitionReset1 ?_).2.2 0 ?_ ?_ ?_)⟩ <;> decide +kernel

/-- Partition 0 at an idle boundary of tenant 0, with `x`'s other fields. -/
def idle0 (x : Part) : State :=
  { with0 { x with bdone := true, step := 5 } with tenants := [(0, { present := true, key := some 3, ranges := [(0, some (8, 64))] })] }

/-- The ready module of tenant 0 with a licence of every block, partition and feature. -/
def licensed0 : State := { rdy with
  tenants := [(0, { present := true, key := some 3, ranges := [(0, some (8, 64)), (1, some (100, 64))] })]
  watch := { licence := some (zeros 0x18 ++ [16, 16, 3, 0]), licValid := true } }

/-- The ready module whose DDR4 channel 2 belongs to tenant 0. -/
def channel2 : State := { rdy with
  tenants := [(0, { present := true, key := some 3 }), (1, { present := true, key := some 4 })]
  ddr := [(2, { owner := some 0 }), (3, { prev := some 1 })] }

/-- HELLO or SESSION from port 1 at the front of function `f`. -/
def greeted (f opc : Nat) (params : Bytes) : State :=
  (rdy.setFn f { cmds := [{ port := 1, payload := le 2 opc ++ zeros 6 ++ params }] }).setHp 1 f {
    vsel := 1, session := some { inKey := zeros 32, outKey := zeros 32 } }
def hail (opc : Nat) (params : Bytes) : Cmd := { port := 1, payload := le 2 opc ++ zeros 6 ++ params }

/-- A context, a sequence of it on row 5, and the row. -/
def seqPart (st : SeqState) : Part := {
  ctxs := [(2, { st := .opened, key := some 8 })], seqs := [{ ctx := 2, seqh := 9, model := 1, st := st, pages := [[some 5]] }] }

/-- A model without profiles. -/
def model1 : Model := { weights := [2], vocab := 100, layers := 1, decB := [5], lists := [[1]] }

/-- A block of MODEL_REGISTER: slot 1, weights handle 2, one decode batch of 5 on plate 1. -/
def modelBlock : Bytes := [1, 1, 1, 1] ++ zeros 4 ++ le 2 1 ++ le 2 1 ++ le 4 100 ++ zeros 12 ++ [1, 0, 0, 0]
  ++ le 4 2 ++ zeros 60 ++ le 2 5 ++ zeros 30 ++ zeros 64 ++ [1] ++ zeros 7 ++ [1] ++ zeros 7

/-- A profile: TEMP 0, TOPP 1.0, no stops, no tree. -/
def profile0 : Bytes := zeros 4 ++ le 4 0x3F800000 ++ zeros 16 ++ [0xFF] ++ zeros 39

/-- The parameter block of an H.264 encode context on pair 0: 16 by 16, output channel 4, two buffer sets. -/
def encBlock : Bytes := [2, 1, 0, 0] ++ le 2 16 ++ le 2 16 ++ zeros 4 ++ le 4 4 ++ le 4 524288 ++ le 2 4 ++ zeros 17 ++ [2] ++ zeros 32
  ++ le 4 524300 ++ zeros 4 ++ [0, 20, 20, 0, 40, 1, 0, 0] ++ zeros 12 ++ le 2 1 ++ le 2 1 ++ zeros 24

/-- A stream entry of a kind, ports, UDP port, partition, channel and video context. -/
def entry (kind ports udp part chan vctx : Nat) : StreamEntry :=
  { raw := le 1 kind ++ le 1 ports ++ le 2 udp ++ le 1 part ++ le 1 chan ++ le 1 vctx ++ zeros 41 }

/-- A tenant without ranges has none that meets another. -/
theorem noRanges {s : State} {tn i f n : Nat} (h : (s.tenant tn).ranges = []) : ∀ j a m, j < 16 → j ≠ i →
    Sp.get none (s.tenant tn).ranges j = some (a, m) → f + n ≤ a ∨ a + m ≤ f := by
  intro j a m _ _ e
  rw [h] at e
  simp [Sp.get] at e

/-- No registered profile of the partition names the table. -/
theorem noProfile {x : Part} {h : Nat}
    (k : (x.modelList.all (fun m => m.2.profiles.all (fun e => match e.2 with | some q => !profileNames q h | none => true))) = true) :
    ∀ m e q, m ∈ x.modelList → e ∈ m.2.profiles → e.2 = some q → profileNames q h = false := by
  intro m e q hm he hq
  have := List.all_eq_true.mp (List.all_eq_true.mp k m hm) e he
  simpa [hq] using this

/-- What holds in either case of a test holds. -/
theorem either {P : Prop} {b : Bool} (h : b = true → P) (k : b = false → P) : P := by
  cases b with
  | true => exact h rfl
  | false => exact k rfl

/-- PART_DELETE of a partition with a live row, bytes in a staging store and a stream. -/
def scrubMe : State := asked 0 0x0106 [0]
  ({ boundary0.setPte 5 livePte with streams := [(2, some (entry 2 1 4000 0 0 0))] }.ssWrite 3 [1, 2])

/-- The hypotheses of RefusedMailboxCommandChangesNothing are met: each clause applies to a state. -/
theorem test_RefusedMailboxCommandChangesNothing_met (h : Obligations.RefusedMailboxCommandChangesNothing) :
    Done (.tenantCreate 1) boundary0
    ∧ Done (.tenantCreate 1) (asked 1 0x0101 [] boundary0)
    ∧ Done (.attest 1) (asked 1 0x0FFF [] boundary0) := by
  refine ⟨kept ((h 1 boundary0 ?_ (Or.inr ?_) (0x0101, .tenantCreate 1) ?_).1 ?_),
    done ((h 1 (asked 1 0x0101 [] boundary0) ?_ (Or.inr ?_) (0x0101, .tenantCreate 1) ?_).2.1 (cmd 0x0101 []) 0x0101 ?_ ?_ ?_),
    done ((h 1 (asked 1 0x0FFF [] boundary0) ?_ (Or.inr ?_) (0x0901, .attest 1) ?_).2.2 (cmd 0x0FFF []) ?_ ?_ ?_)⟩ <;> decide +kernel

/-- The hypotheses of HelloChoosesVersion are met: each clause applies to a state. -/
theorem test_HelloChoosesVersion_met (h : Claims.HelloChoosesVersion) :
    Done (.hello 1) (greeted 1 1 [1, 2])
    ∧ Done (.hello 0) (greeted 0 1 [2, 2]) := by
  refine ⟨done (h 1 (hail 1 [1, 2]) (greeted 1 1 [1, 2]) ?_ ?_ ?_),
    done (h 0 (hail 1 [2, 2]) (greeted 0 1 [2, 2]) ?_ ?_ ?_)⟩ <;> decide +kernel

def atSessionDerivesKeys1 : State := { greeted 1 2 ([9] ++ zeros 31) with watch := { pins := [(1, some (zeros 32))] } }

/-- The hypotheses of SessionDerivesKeys are met: each clause applies to a state. -/
theorem test_SessionDerivesKeys_met (h : Claims.SessionDerivesKeys) :
    Done (.session 1) atSessionDerivesKeys1
    ∧ Done (.session 1) (greeted 1 2 ([9] ++ zeros 31)) := by
  refine ⟨done ((h 1 (hail 2 ([9] ++ zeros 31)) atSessionDerivesKeys1 ?_ ?_ ?_).1 ?_ ?_),
    either (fun z => done ((h 1 (hail 2 ([9] ++ zeros 31)) (greeted 1 2 ([9] ++ zeros 31)) (by decide +kernel) (by decide +kernel)
      (by decide +kernel)).2.1 (Or.inl (by decide +kernel)) z)) (fun z => done ((h 1 (hail 2 ([9] ++ zeros 31)) (greeted 1 2 ([9] ++
      zeros 31)) (by decide +kernel) (by decide +kernel) (by decide +kernel)).2.2 (Or.inl (by decide +kernel)) z))⟩ <;> decide +kernel

def atChannelConfiguration1 : State := asked 1 0x0003 [2] (boundary0.setFn 1 { inch := [(2, { configured := true, next := 5 })] })
def atChannelConfiguration2 : State := asked 1 0x0201 ([2] ++ zeros 3 ++ le 4 8 ++ le 4 4) ((idle0 {}).setHp 1 1 { session := some {} })
def atChannelConfiguration3 : State := asked 1 0x0202 [2, 1, 3] released0
def atChannelConfiguration4 : State := asked 1 0x0202 [2, 1, 3] (idle0 {})
def atChannelConfiguration5 : State :=
  asked 1 0x0202 [2, 1, 3] ((idle0 {}).setFn 1 { outch := [(2, { configured := true, ports := 1, next := 7, watermark := 6 })] })

/-- The hypotheses of ChannelConfiguration are met: each clause applies to a state. -/
theorem test_ChannelConfiguration_met (h : Claims.ChannelConfiguration) :
    Done (.chanQuery 1) atChannelConfiguration1
    ∧ Done (.inchConfig 1) atChannelConfiguration2
    ∧ Done (.outchConfig 1) atChannelConfiguration3
    ∧ Done (.outchConfig 1) atChannelConfiguration4
    ∧ Done (.outchConfig 1) atChannelConfiguration5 := by
  refine ⟨done ((h 1 (cmd 0x0003 [2]) atChannelConfiguration1).1 (starts ?_)),
    done ((h 1 (cmd 0x0201 ([2] ++ zeros 3 ++ le 4 8 ++ le 4 4)) atChannelConfiguration2).2.1 (starts ?_) ?_ ?_ ?_ ?_ ?_ ?_ ?_),
    done ((h 1 (cmd 0x0202 [2, 1, 3]) atChannelConfiguration3).2.2.1 (starts ?_) ?_),
    done ((h 1 (cmd 0x0202 [2, 1, 3]) atChannelConfiguration4).2.2.2 (starts ?_) ?_ ?_ ?_ ?_ ?_ ?_ ?_ ?_ ?_),
    done ((h 1 (cmd 0x0202 [2, 1, 3]) atChannelConfiguration5).2.2.2 (starts ?_) ?_ ?_ ?_ ?_ ?_ ?_ ?_ ?_ ?_)⟩ <;> decide +kernel

def atTenantsChannelsAndRanges1 : State := asked 0 0x0102 [3] { rdy with
  tenants := [(3, { present := true, key := some 5 })], ddr := [(1, { prev := some 3 })], watch := { keys := [5, 6] } }
def atTenantsChannelsAndRanges2 : State := asked 0 0x0103 [4, 1, 0] channel2
def atTenantsChannelsAndRanges3 : State := asked 0 0x0103 [2, 0, 0] channel2
def atTenantsChannelsAndRanges4 : State := asked 0 0x0104 ([0, 3, 0, 0] ++ le 4 524290 ++ le 4 16) channel2

/-- The hypotheses of TenantsChannelsAndRanges are met: each clause applies to a state. -/
theorem test_TenantsChannelsAndRanges_met (h : Claims.TenantsChannelsAndRanges) :
    Done (.tenantCreate 0) (asked 0 0x0101 [3] rdy)
    ∧ Done (.tenantDelete 0) atTenantsChannelsAndRanges1
    ∧ Done (.ddrAssign 0) atTenantsChannelsAndRanges2
    ∧ Done (.ddrAssign 0) atTenantsChannelsAndRanges3
    ∧ Done (.rangeSet 0) atTenantsChannelsAndRanges4 := by
  refine ⟨done ((h 0 (cmd 0x0101 [3]) (asked 0 0x0101 [3] rdy)).1 (starts ?_) ?_ ?_),
    done ((h 0 (cmd 0x0102 [3]) atTenantsChannelsAndRanges1).2.1 (starts ?_) ?_ ?_ ?_ ?_ ?_),
    done ((h 0 (cmd 0x0103 [4, 1, 0]) atTenantsChannelsAndRanges2).2.2.1 (starts ?_) ?_ ?_ ?_ ?_ ?_ ?_ ?_),
    done ((h 0 (cmd 0x0103 [2, 0, 0]) atTenantsChannelsAndRanges3).2.2.2.1 0 (starts ?_) ?_ ?_ ?_ ?_ ?_ (Or.inl ?_)),
    done ((h 0 (cmd 0x0104 ([0, 3, 0, 0] ++ le 4 524290 ++ le 4 16)) atTenantsChannelsAndRanges4).2.2.2.2 (starts ?_) ?_ ?_ ?_ ?_ ?_
      (noRanges ?_) ?_)⟩ <;> decide +kernel

def atPartitionsPoliciesAndPairs1 : State := asked 0 0x0105 ([3, 0, 0, 1, 2, 3, 1, 0] ++ le 4 8 ++ le 4 64 ++ le 4 100 ++ le 4 4) licensed0
def atPartitionsPoliciesAndPairs2 : State := asked 0 0x0109 ([0, 3, 12, 0] ++ le 2 16 ++ le 2 200) boundary0
def atPartitionsPoliciesAndPairs3 : State := asked 1 0x0203 (le 4 500) boundary0

/-- The hypotheses of PartitionsPoliciesAndPairs are met: each clause applies to a state. -/
theorem test_PartitionsPoliciesAndPairs_met (h : Claims.PartitionsPoliciesAndPairs) :
    Done (.partCreate 0) atPartitionsPoliciesAndPairs1
    ∧ Done (.policySet 0) atPartitionsPoliciesAndPairs2
    ∧ Done (.toleranceSet 1) atPartitionsPoliciesAndPairs3
    ∧ Done (.vpairAlloc 0) (asked 0 0x0107 [1, 0] licensed0)
    ∧ Done (.vpairAlloc 0) (asked 0 0x0107 [1, 0] channel2) := by
  refine ⟨done ((h 0 (cmd 0x0105 ([3, 0, 0, 1, 2, 3, 1, 0] ++ le 4 8 ++ le 4 64 ++ le 4 100 ++ le 4 4)) atPartitionsPoliciesAndPairs1).1
    (starts ?_) ?_),
    done ((h 0 (cmd 0x0109 ([0, 3, 12, 0] ++ le 2 16 ++ le 2 200)) atPartitionsPoliciesAndPairs2).2.1 (starts ?_) ?_ ?_ ?_ ?_ ?_ ?_ ?_),
    done ((h 1 (cmd 0x0203 (le 4 500)) atPartitionsPoliciesAndPairs3).2.2.1 (starts ?_)),
    done ((h 0 (cmd 0x0107 [1, 0]) (asked 0 0x0107 [1, 0] licensed0)).2.2.2.1 (starts ?_) ?_ ?_ ?_ ?_ ?_ ?_),
    done ((h 0 (cmd 0x0107 [1, 0]) (asked 0 0x0107 [1, 0] channel2)).2.2.2.2 (starts ?_) ?_ ?_ ?_ ?_)⟩ <;> decide +kernel

def atDeletionsBeginScrub1 : State := asked 0 0x0108 [2] { rdy with vpairs := [(2, { owner := some 0 })] }

/-- The hypotheses of DeletionsBeginScrub are met: each clause applies to a state. -/
theorem test_DeletionsBeginScrub_met (h : Claims.DeletionsBeginScrub) :
    Done (.partDelete 0) scrubMe
    ∧ Done (.partDelete 0) (asked 0 0x0106 [0] rdy)
    ∧ Done (.vpairRelease 0) atDeletionsBeginScrub1 := by
  refine ⟨done ((h 0 (cmd 0x0106 [0]) scrubMe).1 (starts ?_) ?_ ?_),
    done ((h 0 (cmd 0x0106 [0]) (asked 0 0x0106 [0] rdy)).2.1 (starts ?_) ?_ ?_),
    done ((h 0 (cmd 0x0108 [2]) atDeletionsBeginScrub1).2.2 (starts ?_) ?_ ?_ ?_ ?_)⟩ <;> decide +kernel

def atContextsAndSequences1 : State := asked 1 0x0301 ([2] ++ zeros 3 ++ le 4 77 ++ le 2 1 ++ le 2 4) boundary0
def atContextsAndSequences2 : State := asked 1 0x0302 [2] (idle0 { seqPart .active with reqs := [{ ctx := 2, chan := 4 }, { ctx := 3 }] })
def atContextsAndSequences3 : State :=
  asked 1 0x0303 ([2] ++ zeros 3 ++ le 4 9 ++ le 4 10 ++ le 4 50) ((idle0 (seqPart .active)).setPte 5 kvPte)
def atContextsAndSequences4 : State :=
  asked 1 0x0303 ([2] ++ zeros 3 ++ le 4 9 ++ le 4 10 ++ le 4 50) ((idle0 (seqPart .active)).setPte 5 (Pte.make 1 2 Pte.live 0 2 4095 3
    7))
def atContextsAndSequences5 : State := asked 1 0x0304 ([2] ++ zeros 3 ++ le 4 9) ((idle0 (seqPart .paused)).setPte 5 kvPte)

/-- The hypotheses of ContextsAndSequences are met: each clause applies to a state. -/
theorem test_ContextsAndSequences_met (h : Claims.ContextsAndSequences) :
    Done (.ctxOpen 1) atContextsAndSequences1
    ∧ Done (.ctxClose 1) atContextsAndSequences2
    ∧ Done (.ctxClose 1) (asked 1 0x0302 [2] (idle0 {}))
    ∧ Done (.fork 1) atContextsAndSequences3
    ∧ Done (.fork 1) atContextsAndSequences4
    ∧ Done (.seqDrop 1) atContextsAndSequences5 := by
  refine ⟨done ((h 1 (cmd 0x0301 ([2] ++ zeros 3 ++ le 4 77 ++ le 2 1 ++ le 2 4)) atContextsAndSequences1).1 (starts ?_) ?_ ?_ ?_ ?_
    ?_),
    done ((h 1 (cmd 0x0302 [2]) atContextsAndSequences2).2.1 (starts ?_) (⟨by decide +kernel, by decide +kernel, by decide +kernel,
      by decide +kernel, by decide +kernel, by decide +kernel⟩) ?_),
    done ((h 1 (cmd 0x0302 [2]) (asked 1 0x0302 [2] (idle0 {}))).2.2.1 (starts ?_) (⟨by decide +kernel, by decide +kernel,
      by decide +kernel, by decide +kernel, by decide +kernel, by decide +kernel⟩) ?_),
    done ((h 1 (cmd 0x0303 ([2] ++ zeros 3 ++ le 4 9 ++ le 4 10 ++ le 4 50)) atContextsAndSequences3).2.2.2.1
      { ctx := 2, seqh := 9, model := 1, st := .active, pages := [[some 5]] } (starts ?_) (⟨by decide +kernel, by decide +kernel,
      by decide +kernel, by decide +kernel, by decide +kernel, by decide +kernel⟩) ?_ ?_ ?_),
    done ((h 1 (cmd 0x0303 ([2] ++ zeros 3 ++ le 4 9 ++ le 4 10 ++ le 4 50)) atContextsAndSequences4).2.2.2.2.1
      { ctx := 2, seqh := 9, model := 1, st := .active, pages := [[some 5]] } 5 (starts ?_) (⟨by decide +kernel, by decide +kernel,
      by decide +kernel, by decide +kernel, by decide +kernel, by decide +kernel⟩) ?_ ?_ ?_),
    done ((h 1 (cmd 0x0304 ([2] ++ zeros 3 ++ le 4 9)) atContextsAndSequences5).2.2.2.2.2
      { ctx := 2, seqh := 9, model := 1, st := .paused, pages := [[some 5]] } (starts ?_) (⟨by decide +kernel, by decide +kernel,
      by decide +kernel, by decide +kernel, by decide +kernel, by decide +kernel⟩) ?_ ?_)⟩ <;> decide +kernel

def atImageTransfers1 : State := asked 1 0x0401 ([1] ++ zeros 3 ++ le 4 800) (boundary0.setFn 1 { images := [(1, some {})], nextImg := 2 })
def atImageTransfers2 : State := asked 1 0x0402 (le 4 1 ++ le 4 8 ++ [7, 8, 9, 10]) (boundary0.setFn 1 {
  images := [(1, some { kind := 1, length := 16, data := [(0, some 1), (1, some 2)] })], nextImg := 2 })
def atImageTransfers3 : State := asked 1 0x0404 (le 4 1) (boundary0.setFn 1 {
  images := [(1, some { kind := 1, length := 16, data := [(0, some 1), (1, some 2)] })], nextImg := 2 })
def atImageTransfers4 : State := asked 1 0x0403 (le 4 1) (boundary0.setFn 1 {
  images := [(1, some { kind := 1, length := 16, data := [(0, some 1), (1, some 2)] })], nextImg := 2 })
def atImageTransfers5 : State := asked 1 0x0403 (le 4 1) (boundary0.setFn 1 {
  images := [(1, some { kind := 1, length := 2, data := [(0, some 1), (1, some 2)] })], nextImg := 2 })

/-- The hypotheses of ImageTransfers are met: each clause applies to a state. -/
theorem test_ImageTransfers_met (h : Obligations.ImageTransfers) :
    Done (.imgBegin 1) atImageTransfers1
    ∧ Done (.imgBlock 1) atImageTransfers2
    ∧ Done (.imgAbort 1) atImageTransfers3
    ∧ Done (.imgEnd 1) atImageTransfers4
    ∧ Done (.imgEnd 1) atImageTransfers5 := by
  refine ⟨done ((h 1 (cmd 0x0401 ([1] ++ zeros 3 ++ le 4 800)) atImageTransfers1).1 (starts ?_) ?_ ?_ ?_ ?_ ?_),
    done ((h 1 (cmd 0x0402 (le 4 1 ++ le 4 8 ++ [7, 8, 9, 10])) atImageTransfers2).2.1
      { kind := 1, length := 16, data := [(0, some 1), (1, some 2)] } (starts ?_) ?_ ?_ ?_ ?_ ?_ ?_),
    done ((h 1 (cmd 0x0404 (le 4 1)) atImageTransfers3).2.2.1 { kind := 1, length := 16, data := [(0, some 1), (1, some 2)] } (starts
      ?_) ?_),
    done ((h 1 (cmd 0x0403 (le 4 1)) atImageTransfers4).2.2.2.1 { kind := 1, length := 16, data := [(0, some 1), (1, some 2)] } 2
      (starts ?_) ?_ (Or.inl ?_) ?_),
    done ((h 1 (cmd 0x0403 (le 4 1)) atImageTransfers5).2.2.2.2.1 { kind := 1, length := 2, data := [(0, some 1), (1, some 2)] } 1 0
      (starts ?_) ?_ (Or.inl ?_) ?_ ?_)⟩ <;> decide +kernel

def atUnloadsWaitForUse1 : State :=
  asked 1 0x0405 (le 4 1) (with0 { plates := [(1, some { pages := [5] })], st := .released, handles := [1] })
def atUnloadsWaitForUse2 : State :=
  asked 1 0x0405 (le 4 1) ((with0 { plates := [(1, some { pages := [5] }), (2, some { pages := [6] })] }).setPte 5 livePte)
def atUnloadsWaitForUse3 : State := asked 1 0x0406 (le 4 1) ((with0 {
  tables := [(1, some { tkind := 1, rows := [5] })], models := [(0, some { profiles := [(0, some profile0)] })] }).setPte 5 livePte)
def atUnloadsWaitForUse4 : State := asked 1 0x0406 (le 4 1) (with0 {
  tables := [(1, some { tkind := 1, rows := [5] })]
  models := [(0, some { profiles := [(0, some (zeros 10 ++ [1, 0] ++ le 4 1 ++ zeros 48))] })] })
def atUnloadsWaitForUse5 : State :=
  asked 1 0x0407 (le 4 2) ((with0 { wimgs := [(2, some { rows := [5] })], models := [(0, some { weights := [3] })] }).setPte 5 livePte)

/-- The hypotheses of UnloadsWaitForUse are met: each clause applies to a state. -/
theorem test_UnloadsWaitForUse_met (h : Claims.UnloadsWaitForUse) :
    Done (.plateUnload 1) atUnloadsWaitForUse1
    ∧ Done (.plateUnload 1) atUnloadsWaitForUse2
    ∧ Done (.tableUnload 1) atUnloadsWaitForUse3
    ∧ Done (.tableUnload 1) atUnloadsWaitForUse4
    ∧ Done (.weightsUnload 1) atUnloadsWaitForUse5 := by
  refine ⟨done ((h 1 (cmd 0x0405 (le 4 1)) atUnloadsWaitForUse1).1 (starts ?_) ?_ ?_),
    done ((h 1 (cmd 0x0405 (le 4 1)) atUnloadsWaitForUse2).2.1 (starts ?_) ?_ ?_),
    done ((h 1 (cmd 0x0406 (le 4 1)) atUnloadsWaitForUse3).2.2.1 { tkind := 1, rows := [5] } (starts ?_) ?_ ?_ (noProfile ?_)),
    done ((h 1 (cmd 0x0406 (le 4 1)) atUnloadsWaitForUse4).2.2.2.1 { tkind := 1, rows := [5] } 0
      { profiles := [(0, some (zeros 10 ++ [1, 0] ++ le 4 1 ++ zeros 48))] } 0 (zeros 10 ++ [1, 0] ++ le 4 1 ++ zeros 48) (starts ?_) ?_
      ?_ ?_ ?_ ?_),
    done ((h 1 (cmd 0x0407 (le 4 2)) atUnloadsWaitForUse5).2.2.2.2 { rows := [5] } (starts ?_) ?_ ?_ ?_)⟩ <;> decide +kernel

def atModelsProfilesAndTrees1 : State :=
  asked 1 0x0501 modelBlock ((with0 { plates := [(1, some {})], wimgs := [(2, some { rows := [5, 6] })] }).setPte 5 livePte)
def atModelsProfilesAndTrees2 : State :=
  asked 1 0x0502 [1] ((with0 { models := [(1, some model1)], wimgs := [(2, some { rows := [5] })] }).setPte 5 livePte)
def atModelsProfilesAndTrees3 : State := asked 1 0x0503 ([1, 3] ++ zeros 6 ++ profile0) (with0 { models := [(1, some model1)] })
def atModelsProfilesAndTrees4 : State := asked 1 0x0503 ([1, 3] ++ zeros 6 ++ zeros 64) (with0 { models := [(1, some model1)] })
def atModelsProfilesAndTrees5 : State :=
  asked 1 0x0504 [1, 3] (with0 { models := [(1, some { model1 with profiles := [(3, some profile0)] })] })
def atModelsProfilesAndTrees6 : State :=
  asked 1 0x0505 ([1, 4, 3] ++ zeros 5 ++ [0xFF, 0, 1] ++ zeros 61) (with0 { models := [(1, some model1)] })

/-- The hypotheses of ModelsProfilesAndTrees are met: each clause applies to a state. -/
theorem test_ModelsProfilesAndTrees_met (h : Claims.ModelsProfilesAndTrees) :
    Done (.modelRegister 1) atModelsProfilesAndTrees1
    ∧ Done (.modelRemove 1) atModelsProfilesAndTrees2
    ∧ Done (.profileSet 1) atModelsProfilesAndTrees3
    ∧ Done (.profileSet 1) atModelsProfilesAndTrees4
    ∧ Done (.profileRemove 1) atModelsProfilesAndTrees5
    ∧ Done (.treeSet 1) atModelsProfilesAndTrees6 := by
  refine ⟨done ((h 1 (cmd 0x0501 modelBlock) atModelsProfilesAndTrees1).1 (starts ?_) ?_ ?_),
    done ((h 1 (cmd 0x0502 [1]) atModelsProfilesAndTrees2).2.1 model1 (starts ?_) ?_ ?_ ?_ ?_),
    done ((h 1 (cmd 0x0503 ([1, 3] ++ zeros 6 ++ profile0)) atModelsProfilesAndTrees3).2.2.1 model1 (starts ?_) ?_ ?_),
    done ((h 1 (cmd 0x0503 ([1, 3] ++ zeros 6 ++ zeros 64)) atModelsProfilesAndTrees4).2.2.1 model1 (starts ?_) ?_ ?_),
    done ((h 1 (cmd 0x0504 [1, 3]) atModelsProfilesAndTrees5).2.2.2.1 { model1 with profiles := [(3, some profile0)] } (starts ?_) ?_ ?_
      ?_ ?_),
    done ((h 1 (cmd 0x0505 ([1, 4, 3] ++ zeros 5 ++ [0xFF, 0, 1] ++ zeros 61)) atModelsProfilesAndTrees6).2.2.2.2 model1 (starts ?_) ?_
      ?_ ?_ ?_ ?_ ?_ ?_)⟩ <;> decide +kernel

def atVideoContextCommands1 : State :=
  asked 1 0x0601 ([5] ++ zeros 7 ++ encBlock) { channel2.setPart 0 { present := true } with vpairs := [(0, { owner := some 0 })] }
def atVideoContextCommands2 : State := asked 1 0x0601 ([5] ++ zeros 7 ++ encBlock) boundary0
def atVideoContextCommands3 : State := asked 1 0x0602 [5] { boundary0.setVctx 0 3 (some { vctx := 5, params := encBlock }) with
  streams := [(4, some (entry 1 1 4000 0 0 5))] }
def atVideoContextCommands4 : State := asked 1 0x0602 [5] (boundary0.setVctx 0 3 (some { vctx := 5, params := encBlock, jobs := [{}] }))
def atVideoContextCommands5 : State := asked 1 0x0603 [5] ((idle0 {}).setVctx 0 3 (some { vctx := 5, params := encBlock }))

/-- The hypotheses of VideoContextCommands are met: each clause applies to a state. -/
theorem test_VideoContextCommands_met (h : Claims.VideoContextCommands) :
    Done (.vctxOpen 1) atVideoContextCommands1
    ∧ Done (.vctxOpen 1) atVideoContextCommands2
    ∧ Done (.vctxClose 1) atVideoContextCommands3
    ∧ Done (.vctxClose 1) atVideoContextCommands4
    ∧ Done (.keyRequest 1) atVideoContextCommands5 := by
  refine ⟨done ((h 1 (cmd 0x0601 ([5] ++ zeros 7 ++ encBlock)) atVideoContextCommands1).1 (starts ?_) ?_ ?_ ?_),
    done ((h 1 (cmd 0x0601 ([5] ++ zeros 7 ++ encBlock)) atVideoContextCommands2).2.1 0x22 (starts ?_) ?_ ?_ ?_),
    done ((h 1 (cmd 0x0602 [5]) atVideoContextCommands3).2.2.1 0 3 { vctx := 5, params := encBlock } (starts ?_) ?_),
    done ((h 1 (cmd 0x0602 [5]) atVideoContextCommands4).2.2.1 0 3 { vctx := 5, params := encBlock, jobs := [{}] } (starts ?_) ?_),
    done ((h 1 (cmd 0x0603 [5]) atVideoContextCommands5).2.2.2 0 3 { vctx := 5, params := encBlock } (starts ?_) ?_ ?_ ?_ ?_ ?_ ?_ ?_
      ?_)⟩ <;> decide +kernel

def atAttestationReport1 : State := asked 1 0x0901 (zeros 32 ++ le 2 0) (with0 { plates := [(1, some { meas := zeros 64 })] })

/-- The hypotheses of AttestationReport are met: each clause applies to a state. -/
theorem test_AttestationReport_met (h : Claims.AttestationReport) :
    Done (.attest 1) atAttestationReport1 := by
  refine done (h 1 (cmd 0x0901 (zeros 32 ++ le 2 0)) atAttestationReport1 (starts ?_) ?_) <;> decide +kernel

/-- The signing key that is the curve's neutral point: under it, the point with a zero scalar signs every message. -/
def key1 : Bytes := [1] ++ zeros 31
def sig1 : Bytes := [1] ++ zeros 63

/-- A firmware image of 256 bytes for every module, signed under `key1`. -/
def fwImage : Bytes := le 4 0x45544657 ++ le 2 1 ++ le 2 0xE700 ++ zeros 8 ++ le 4 9 ++ le 2 2 ++ zeros 2 ++ le 4 256 ++ zeros 164 ++ sig1

/-- PF0's commands while slot 1 receives `len` bytes that begin with `b`. -/
def receiving (len : Nat) (b : Bytes) : State := { rdy with
  watch := { fwKey := key1, idSeed := zeros 32 }
  fw := { a := { st := .current, version := 3 }, b := { st := .writing }, xfer := some (1, len), data := b.zipIdx.map (fun e => (e.2, some e.1)) } }

/-- Slot 1 holds a pending image under the key, or under another. -/
def pending1 (key : Bytes) : State := { rdy with
  watch := { fwKey := key }
  fw := { a := { st := .current, version := 3 }, b := { st := .pending, version := 9, image := fwImage } } }

/-- Slot 1 runs on trial. -/
def trial1 : State := { rdy with
  dome := { cores := (List.range 8).map (fun n => (n, { st := .run })) }
  fw := { a := { st := .current, version := 3 }, b := { st := .trial, version := 9 }, running := 1, window := some 900000 } }

/-- A frame of the arbiter: KIND, TERM, and TARGET 1. -/
def roleHead (kind term : Nat) : Bytes := [2, 1] ++ le 1 kind ++ [0] ++ le 4 term ++ le 8 77 ++ le 2 3 ++ [1] ++ zeros 9
def role (kind term : Nat) : Bytes := roleHead kind term ++ le 4 (Crypto.crc32c (roleHead kind term))

def paired (st : PairState) : State := { rdy with pair := { st := st, term := 4, pmask := 1, lease := some 999000, lastRole := some 990000, beatAt := some 998000 } }

/-- A unit in RESYNC with a MIRROR body that waits on function 1, and what it has received. -/
def resyncing (m : Bytes) (x : SnapRx) : State :=
  { boundary0.setFn 1 { mirrors := [m] } with
    pair := { st := .resync, term := 4, pmask := 1, rx := [(0, x)], resyncCmd := some 9 } }
def snapHead (k : Nat) : Bytes := le 1 k ++ zeros 3 ++ le 4 4 ++ le 8 6

/-- SNAP_END for one frame with the handles of a partition that has none. -/
def snapGot : SnapRx := { begun := true, step := 6, head := zeros 4, ok := true, body := zeros 4, frames := 1 }
def snapLast : Bytes := snapHead 5 ++ le 4 1 ++ Crypto.sha512 (zeros 4)

/-- FW_END of a transfer completes, whatever its checks answer. -/
theorem fwEnds (h : Claims.FirmwareTransfer) {s : State} {c : Cmd} {i len : Nat} (hs : Claims.Starts s 0 0x0703 c)
    (hx : s.fw.xfer = some (i, len)) (hi : i ≤ 1) : Done (.fwEnd 0) s := by
  have e := (h 0 c s).2.2.1 i len hs hx hi
  dsimp only at e
  split at e <;> exact done e

/-- The image passes every check; two of its bytes are no image. -/
theorem test_fwImage_passes : FwImage.refusal key1 1 true fwImage = none := by decide +kernel
theorem test_fwImage_incomplete : FwImage.refusal key1 1 false [1, 2] = some 3 := by decide +kernel

/-- A PANRD of cell 1 that has started on a codeword that cannot be corrected. -/
def unreadable : State :=
  let s := (started 6 (desc [(0, 4), (32, 1), (35, 2), (64, 4095), (77, 8191), (96, 1)])).setPte 162 livePte
  { s with mem := { s.mem with panErr := [(2670588, 2)] } }

def atFirmwareTransfer1 : State := asked 0 0x0701 ([1] ++ zeros 3 ++ le 4 512) rdy
def atFirmwareTransfer2 : State := asked 0 0x0702 (le 4 8 ++ le 4 3 ++ [7, 8, 9]) (receiving 256 [1, 2])
def atFirmwareTransfer3 : State := asked 0 0x0703 [] (receiving 256 [1, 2])
def atFirmwareTransfer4 : State := asked 0 0x0703 [] (receiving 256 fwImage)
def atFirmwareTransfer5 : State := asked 0 0x0704 [] (receiving 256 [1, 2])
def atFirmwareTransfer6 : State := asked 0 0x0706 [] (receiving 256 [1, 2])

/-- The hypotheses of FirmwareTransfer are met: each clause applies to a state. -/
theorem test_FirmwareTransfer_met (h : Claims.FirmwareTransfer) :
    Done (.fwBegin 0) atFirmwareTransfer1
    ∧ Done (.fwBlock 0) atFirmwareTransfer2
    ∧ Done (.fwEnd 0) atFirmwareTransfer3
    ∧ Done (.fwEnd 0) atFirmwareTransfer4
    ∧ Done (.fwAbort 0) atFirmwareTransfer5
    ∧ Done (.fwStatus 0) atFirmwareTransfer6 := by
  refine ⟨done ((h 0 (cmd 0x0701 ([1] ++ zeros 3 ++ le 4 512)) atFirmwareTransfer1).1 (starts ?_) ?_ ?_ ?_ ?_ ?_),
    done ((h 0 (cmd 0x0702 (le 4 8 ++ le 4 3 ++ [7, 8, 9])) atFirmwareTransfer2).2.1 1 256 (starts ?_) ?_ ?_ ?_ ?_ ?_ ?_ ?_),
    fwEnds h (c := cmd 0x0703 []) (i := 1) (len := 256) (starts ?_) ?_ ?_,
    fwEnds h (c := cmd 0x0703 []) (i := 1) (len := 256) (starts ?_) ?_ ?_,
    done ((h 0 (cmd 0x0704 []) atFirmwareTransfer5).2.2.2.1 1 256 (starts ?_) ?_ ?_),
    done ((h 0 (cmd 0x0706 []) atFirmwareTransfer6).2.2.2.2 (starts ?_) ?_)⟩ <;> decide +kernel

def atFirmwareTrialAndFallback1 : State := asked 0 0x0705 [1] (pending1 (zeros 31 ++ [1]))
def atFirmwareTrialAndFallback2 : State := asked 0 0x0705 [1] (pending1 key1)
def atFirmwareTrialAndFallback3 : State := { trial1 with fw := { trial1.fw with window := some 1000001 } }
def atFirmwareTrialAndFallback4 : State := { trial1 with fw := { trial1.fw with a := { st := .previous, version := 3 } } }

/-- The hypotheses of FirmwareTrialAndFallback are met: each clause applies to a state. -/
theorem test_FirmwareTrialAndFallback_met (h : Claims.FirmwareTrialAndFallback) :
    Done (.fwActivate 0) atFirmwareTrialAndFallback1
    ∧ Done (.fwActivate 0) atFirmwareTrialAndFallback2
    ∧ Done .firmwareConfirm trial1
    ∧ Done .confirmationWindowExpiry atFirmwareTrialAndFallback3
    ∧ Done .confirmationWindowExpiry trial1
    ∧ Done .confirmationWindowExpiry atFirmwareTrialAndFallback4 := by
  refine ⟨done ((h.1 0 (cmd 0x0705 [1]) atFirmwareTrialAndFallback1 (starts ?_) ?_ ?_ ?_ ?_ ?_ ?_).1 ?_),
    done ((h.1 0 (cmd 0x0705 [1]) atFirmwareTrialAndFallback2 (starts ?_) ?_ ?_ ?_ ?_ ?_ ?_).2 ?_),
    done (h.2.1 trial1 ?_ ?_ ?_ ?_ ?_ ?_ ?_ ?_),
    kept ((h.2.2 atFirmwareTrialAndFallback3 1000001 ?_).1 ?_),
    done ((h.2.2 trial1 900000 ?_).2 ?_ ?_ ?_),
    done ((h.2.2 atFirmwareTrialAndFallback4 900000 ?_).2 ?_ ?_ ?_)⟩ <;> decide +kernel

def atPairCommandsMoveByState1 : State := asked 0 0x0801 (le 8 55 ++ le 4 6 ++ le 2 1 ++ zeros 2) boundary0
def atPairCommandsMoveByState2 : State :=
  asked 0 0x0801 (le 8 55 ++ le 4 6 ++ le 2 1 ++ zeros 2) { boundary0 with pair := { st := .active } }
def atPairCommandsMoveByState3 : State :=
  asked 0 0x0802 [] { (with0 { step := 5, held := [{ step := 5 }] }) with pair := { st := .standby, pmask := 1, term := 4 } }
def atPairCommandsMoveByState4 : State :=
  asked 0 0x0803 [] { (with0 { step := 5, held := [{ step := 5 }] }) with pair := { st := .isolated, pmask := 1, term := 4 } }
def atPairCommandsMoveByState5 : State := asked 0 0x0804 ([0, 3] ++ zeros 6 ++ le 4 9) { boundary0 with pair := { st := .active } }
def atPairCommandsMoveByState6 : State := asked 0 0x0805 [] { boundary0 with pair := { st := .stale } }
def atPairCommandsMoveByState7 : State := asked 0 0x0806 [1, 0] { boundary0 with pair := { st := .active } }

/-- The hypotheses of PairCommandsMoveByState are met: each clause applies to a state. -/
theorem test_PairCommandsMoveByState_met (h : Obligations.PairCommandsMoveByState) :
    Done (.pairConfig 0) atPairCommandsMoveByState1
    ∧ Done (.pairConfig 0) atPairCommandsMoveByState2
    ∧ Done (.pairStatus 0) atPairCommandsMoveByState3
    ∧ Done (.pairUnpair 0) atPairCommandsMoveByState4
    ∧ Done (.pairSuspect 0) atPairCommandsMoveByState5
    ∧ Done (.pairResync 0) atPairCommandsMoveByState6
    ∧ Done (.pairSnapshot 0) atPairCommandsMoveByState7
    ∧ Done (.pairSnapshot 0) (asked 0 0x0806 [1, 0] boundary0) := by
  refine ⟨done (((h 0 (cmd 0x0801 (le 8 55 ++ le 4 6 ++ le 2 1 ++ zeros 2)) atPairCommandsMoveByState1).1 (starts ?_)
    (fun p hp _ _ => (by decide +kernel : ∀ p, p < 16 → (atPairCommandsMoveByState1.part p).reflex = false) p hp)).1 ?_),
    done (((h 0 (cmd 0x0801 (le 8 55 ++ le 4 6 ++ le 2 1 ++ zeros 2)) atPairCommandsMoveByState2).1 (starts ?_)
      (fun p hp _ _ => (by decide +kernel : ∀ p, p < 16 → (atPairCommandsMoveByState2.part p).reflex = false) p hp)).2 ?_),
    done ((h 0 (cmd 0x0802 []) atPairCommandsMoveByState3).2.1 (starts ?_)),
    done ((h 0 (cmd 0x0803 []) atPairCommandsMoveByState4).2.2.1 (starts ?_) (Or.inr (Or.inl ?_))),
    done ((h 0 (cmd 0x0804 ([0, 3] ++ zeros 6 ++ le 4 9)) atPairCommandsMoveByState5).2.2.2.1 (starts ?_) ?_ ?_),
    done ((h 0 (cmd 0x0805 []) atPairCommandsMoveByState6).2.2.2.2.1 (starts ?_) (Or.inl ?_)),
    done (((h 0 (cmd 0x0806 [1, 0]) atPairCommandsMoveByState7).2.2.2.2.2 (starts ?_) ?_ ((by decide +kernel : ∀ p, p < 16 → (u16 (cmd
      0x0806 [1, 0]).payload 8).testBit p = true → (atPairCommandsMoveByState7.part p).present = true))).1 ?_),
    done (((h 0 (cmd 0x0806 [1, 0]) (asked 0 0x0806 [1, 0] boundary0)).2.2.2.2.2 (starts ?_) ?_ ((by decide +kernel : ∀ p, p < 16 → (u16
      (cmd 0x0806 [1, 0]).payload 8).testBit p = true → ((asked 0 0x0806 [1, 0] boundary0).part p).present = true))).2 ?_)⟩ <;>
      decide +kernel

def atArbiterRolesLeaseAndHeartbeat1 : State := { paired .active with pair := { (paired .active).pair with lease := some 1000001 } }
def atArbiterRolesLeaseAndHeartbeat2 : State := { paired .active with pair := { (paired .active).pair with beatAt := some 999500 } }
def atArbiterRolesLeaseAndHeartbeat3 : State := { paired .active with pair := { (paired .active).pair with lastRole := some 995001 } }
def atArbiterRolesLeaseAndHeartbeat4 : State := { paired .active with pair := { (paired .active).pair with silent := true } }

/-- The hypotheses of ArbiterRolesLeaseAndHeartbeat are met: each clause applies to a state. -/
theorem test_ArbiterRolesLeaseAndHeartbeat_met (h : Obligations.ArbiterRolesLeaseAndHeartbeat) :
    Done (.roleActive [2, 1]) (paired .active)
    ∧ Done (.roleStandby [2, 1]) (paired .active)
    ∧ Done (.roleIsolate [2, 1]) (paired .active)
    ∧ Done (.roleActive (role 1 5)) (paired .standby)
    ∧ Done (.roleStandby (role 2 5)) (paired .wait)
    ∧ Done (.roleStandby (role 2 5)) (paired .active)
    ∧ Done (.roleIsolate (role 3 5)) (paired .active)
    ∧ Done .leaseExpiry atArbiterRolesLeaseAndHeartbeat1
    ∧ Done .leaseExpiry (paired .active)
    ∧ Done .heartbeat atArbiterRolesLeaseAndHeartbeat2
    ∧ Done .heartbeat (paired .active)
    ∧ Done .arbiterLink atArbiterRolesLeaseAndHeartbeat3
    ∧ Done .arbiterLink atArbiterRolesLeaseAndHeartbeat4
    ∧ Done .arbiterLink (paired .active) := by
  refine ⟨done (h.1 [2, 1] (paired .active) ?_ (.roleActive [2, 1]) (Or.inl rfl) ),
    done (h.1 [2, 1] (paired .active) ?_ (.roleStandby [2, 1]) (Or.inr (Or.inl rfl)) ),
    done (h.1 [2, 1] (paired .active) ?_ (.roleIsolate [2, 1]) (Or.inr (Or.inr rfl)) ),
    done ((h.2.1 (role 1 5) (paired .standby) ?_ ?_ ?_ ?_ (Or.inl ?_)).1 ?_ (Or.inr (Or.inl ?_))),
    done ((h.2.1 (role 2 5) (paired .wait) ?_ ?_ ?_ ?_ (Or.inl ?_)).2.1 ?_ (Or.inl ?_)),
    done ((h.2.1 (role 2 5) (paired .active) ?_ ?_ ?_ ?_ (Or.inl ?_)).2.2.1 ?_ (Or.inl ?_)),
    done ((h.2.1 (role 3 5) (paired .active) ?_ ?_ ?_ ?_ (Or.inl ?_)).2.2.2 ?_),
    kept ((h.2.2.1 1000001 atArbiterRolesLeaseAndHeartbeat1 ?_ ?_).1 ?_),
    done ((h.2.2.1 999000 (paired .active) ?_ ?_).2 ?_),
    kept ((h.2.2.2.1 atArbiterRolesLeaseAndHeartbeat2 ?_ ?_).1 (⟨999500, by decide +kernel, by decide +kernel⟩)),
    done ((h.2.2.2.1 (paired .active) ?_ ?_).2 (Or.inr ⟨998000, by decide +kernel, by decide +kernel⟩)),
    kept ((h.2.2.2.2 995001 atArbiterRolesLeaseAndHeartbeat3 ?_ ?_).1 ?_),
    kept ((h.2.2.2.2 990000 atArbiterRolesLeaseAndHeartbeat4 ?_ ?_).2.1 ?_),
    done ((h.2.2.2.2 990000 (paired .active) ?_ ?_).2.2 ?_ ?_)⟩ <;> decide +kernel

def atSnapshotsTransferPartitions1 : State := { (with0 { step := 7, snapshot := some ({ step := 5 }, []) }) with
  pair := { st := .active, pmask := 1, snapLeft := 1, snapCmd := some 4 } }
def atSnapshotsTransferPartitions2 : State := resyncing (snapHead 2 ++ zeros 4) {}
def atSnapshotsTransferPartitions3 : State := resyncing (snapHead 3 ++ le 4 0 ++ [1, 2]) snapGot
def atSnapshotsTransferPartitions4 : State := resyncing (snapHead 4 ++ le 4 5 ++ le 4 0 ++ zeros 8 ++ zeros 8) snapGot

/-- The hypotheses of SnapshotsTransferPartitions are met: each clause applies to a state. -/
theorem test_SnapshotsTransferPartitions_met (h : Obligations.SnapshotsTransferPartitions) :
    Done (.snapshotTransmit 0) atSnapshotsTransferPartitions1
    ∧ Done (.snapBegin 1) atSnapshotsTransferPartitions2
    ∧ Done (.snapDome 1) atSnapshotsTransferPartitions3
    ∧ Done (.snapPage 1) atSnapshotsTransferPartitions4
    ∧ Done (.snapEnd 1) (resyncing snapLast snapGot)
    ∧ Done (.snapEnd 1) (resyncing snapLast {}) := by
  refine ⟨done (h.1 0 { step := 5 } [] atSnapshotsTransferPartitions1 ?_ ?_ (Or.inl ?_) ?_),
    done ((h.2 1 (snapHead 2 ++ zeros 4) [] atSnapshotsTransferPartitions2 ?_ ?_ ?_ ?_ ?_ ?_).1 ?_),
    done ((h.2 1 (snapHead 3 ++ le 4 0 ++ [1, 2]) [] atSnapshotsTransferPartitions3 ?_ ?_ ?_ ?_ ?_ ?_).2.1 ?_ ?_),
    done ((h.2 1 (snapHead 4 ++ le 4 5 ++ le 4 0 ++ zeros 8 ++ zeros 8) [] atSnapshotsTransferPartitions4 ?_ ?_ ?_ ?_ ?_ ?_).2.2.1 ?_
      ?_),
    done ((h.2 1 snapLast [] (resyncing snapLast snapGot) ?_ ?_ ?_ ?_ ?_ ?_).2.2.2.1 ?_ (⟨by decide +kernel, by decide +kernel,
      by decide +kernel, by decide +kernel⟩)),
    done ((h.2 1 snapLast [] (resyncing snapLast {}) ?_ ?_ ?_ ?_ ?_ ?_).2.2.2.2 ?_ (fun e => absurd e.1 (by decide +kernel)))⟩ <;>
      decide +kernel

/-- The hypotheses of UncorrectableReadStops are met: each clause applies to a state. -/
theorem test_UncorrectableReadStops_met (h : Claims.UncorrectableReadStops) :
    Done (.panrd 1 1) unreadable := by
  refine done (h 1 1 0 2670588 (opOf 6 (desc [(0, 4), (32, 1), (35, 2), (64, 4095), (77, 8191), (96, 1)])) unreadable ?_ ?_ ?_ ?_ ?_
    (⟨[], by decide +kernel⟩) (Or.inl ?_) ?_) <;> decide +kernel

def atRefusedAccessStops1 : State := queued 6 (desc [(0, 4), (32, 1), (35, 2), (64, 4095), (77, 8191), (96, 1)])

/-- The hypotheses of RefusedAccessStops are met: each clause applies to a state. -/
theorem test_RefusedAccessStops_met (h : Claims.RefusedAccessStops) :
    Done (.operationStart 1 6) atRefusedAccessStops1 := by
  refine done (h 1 6 0 3 4 [] { id := 3, desc := desc [(0, 4), (32, 1), (35, 2), (64, 4095), (77, 8191), (96, 1)] }
    atRefusedAccessStops1 ?_ ?_ ?_ ?_ ?_ ?_ (fun e => absurd e (by decide +kernel)) _ _ rfl ?_) <;> decide +kernel

/-- Port S0 with address 10.0.0.1, VLAN 7, and a stream entry 4 for UDP port 4000. -/
def streamed (e : StreamEntry) (s : State) : State :=
  { s with streams := [(4, some e)], watch := { addrs := [(0, { vid := 7, ipv4 := 0x0A000001 })] } }

/-- An IPv4 header without options to that address, for `n` bytes of UDP payload. -/
def ipHead (n sum : Nat) : Bytes := [0x45, 0] ++ be 2 (28 + n) ++ zeros 4 ++ [64, 17] ++ be 2 sum ++ [10, 0, 0, 2, 10, 0, 0, 1]

/-- An Ethernet frame to MAC address 0 with the tag of a VLAN, and what follows the tag. -/
def tagged (vid : Nat) (r : Bytes) : Bytes := zeros 6 ++ [2, 0, 0, 0, 0, 1, 0x81, 0] ++ be 2 vid ++ r

/-- The frame of a datagram to UDP port 4000 of that address, and what its port reads in it. -/
def onVlan (vid : Nat) (payload : Bytes) : Bytes :=
  let n := payload.length
  tagged vid ([8, 0] ++ ipHead n (65535 - Eth.words (ipHead n 0) % 65535) ++ be 2 900 ++ be 2 4000 ++ be 2 (8 + n) ++ [0, 0] ++ payload)
def gram (payload : Bytes) : Bytes := onVlan 7 payload
def parsed (payload : Bytes) : Datagram := {
  ethSrc := 0x020000000001, vlan := some 7, srcIp := 0xFFFF0A000002, dstIp := 0xFFFF0A000001, srcPort := 900, dstPort := 4000
  payload := payload }

/-- An ARP request for 10.0.0.1 from 10.0.0.5. -/
def whoHas : Bytes := tagged 7 ([8, 6, 0, 1, 8, 0, 6, 4, 0, 1, 2, 0, 0, 0, 0, 1, 10, 0, 0, 5] ++ zeros 6 ++ [10, 0, 0, 1])

/-- A Kigrim DATA frame of channel 2 and context 0 with FLAGS, SEQ and two bytes. -/
def kigrim (flags seq : Nat) : Bytes := [5, 1, 2, 0] ++ le 2 flags ++ zeros 2 ++ le 8 seq ++ le 4 2 ++ zeros 12 ++ [7, 8]

def sensorIn : State := streamed (entry 2 1 4000 0 2 0)
  (boundary0.setFn 1 { inch := [(2, { configured := true, next := 5, ring := { first := 8, pages := 1 } })] })
def reflexIn (x : Part) : State := streamed (entry 3 1 4000 0 2 0) (with0 x)

/-- An RTP packet number 9 with one H.264 slice. -/
def rtp9 : Bytes := [128, 96, 0, 9] ++ zeros 8 ++ [0x41, 1, 2]

/-- The parameter block of an H.264 decode context on pair 0: 16 by 16, one output pixel, two buffer sets. -/
def decBlock : Bytes := [1, 1, 0, 0] ++ le 2 16 ++ le 2 16 ++ [1, 0, 0, 0] ++ le 4 6 ++ le 4 524288 ++ le 2 4 ++ zeros 6 ++ le 2 16 ++ le 2 16
  ++ le 2 1 ++ le 2 1 ++ [0, 0, 1, 2] ++ le 2 1 ++ le 2 1 ++ zeros 28 ++ le 4 524300 ++ zeros 52

def rtpIn (e : StreamEntry) : State := streamed e (boundary0.setVctx 0 3 (some { vctx := 5, params := decBlock }))
def rtpEntry : StreamEntry := { entry 1 1 4000 0 0 5 with raw := le 1 1 ++ le 1 1 ++ le 2 4000 ++ [0, 0, 5, 255] ++ zeros 40 }

/-- Module with a link of a port. -/
def linked (port : Nat) (x : Link) : State := rdy.setLink port x

/-- Context 3 of pair 0 in a partition of a tenant with a key. -/
def filmed (c : VidCtx) : State :=
  { (boundary0.setVctx 0 3 (some c)) with tenants := [(0, { present := true, key := some 3 })], ddr := [(2, { owner := some 0 })] }
def film : VidCtx := { vctx := 5, params := decBlock }
def shot : Picture := { num := 2, width := 2, height := 2, planes := { luma := [16, 17, 18, 19], cb := [128], cr := [128] } }

def onChan (d : DdrChan) : State := rdy.setDchan 2 d

/-- A module whose partition 0 has DATA row 5 open to Dome stores. -/
def apertured : State := { boundary0.setPte 5 (Pte.make 0 0 Pte.live 0 0 0 3 7) with
  tenants := [(0, { present := true, key := some 3, ranges := [(0, some (524288, 64))] })], ddr := [(2, { owner := some 0, selfRef := true })] }

/-- Row 80 of layer 0 of that row's Pan is being copied. -/
def copied : State := apertured.setPan 0 { copying := [80] }

/-- Core 3 with `c`, and sources 2 and 146 + 3 enabled for it. -/
def cored (c : Core) (pend : List Nat) : State :=
  { rdy with dome := { cores := [(3, c)], enable := [2, 149], target := [(2, 8), (149, 8)], pend := pend } }

/-- The ready module with its supplies on, and bytes in Dome memory. -/
def onBoard : State := { rdy with board := { st := .on }, mem := { dome := [(3, 7)] } }

theorem one3 {c : VidCtx} : ∀ n, n ≠ 3 → n < 8 → (filmed c).vctx 0 n = none := by
  intro n h k
  have : n = 0 ∨ n = 1 ∨ n = 2 ∨ n = 4 ∨ n = 5 ∨ n = 6 ∨ n = 7 := by omega
  rcases this with rfl | rfl | rfl | rfl | rfl | rfl | rfl <;> rfl

theorem lower2 {P : Nat → Prop} (h : ¬ P 1) : ∀ m, 1 ≤ m → m < 2 → ¬ P m := by
  intro m h1 h2
  have : m = 1 := by omega
  exact this ▸ h

/-- A context whose input waits. -/
def unitWaits : VidCtx := { film with input := [.nal [1, 2], .auEnd 7] }

/-- The pair serves its one context when that has a picture. -/
theorem servedNext {c : VidCtx} (h : c.slices = []) : (filmed c).nextServed 0 = if c.hasPicture then some 3 else none := by
  have v : ∀ j, j < 8 → (filmed c).vctx 0 j = if j = 3 then some c else none := by
    intro j k
    by_cases e : j = 3
    · subst e; rfl
    · rw [if_neg e]; exact one3 j e k
  have l : ((filmed c).vpair 0).last = 7 := rfl
  have none_ : ∀ j, j < 8 → j ≠ 3 → (filmed c).vctx 0 j = none := fun j a b => (v j a).trans (if_neg b)
  have some_ : (filmed c).vctx 0 3 = some c := rfl
  simp [State.nextServed, Machine.rotation, l, List.range, List.range.loop, none_, some_, h, List.find?]
  cases c.hasPicture <;> rfl

/-- PICTURE_DECODE completes whatever the decoder finds in the input, of which nothing is known. -/
theorem decodes (h : Claims.DecodedPicturesReachTheHost) : Done (.pictureDecode 0) (filmed unitWaits) := by
  have d : unitWaits.isDecode = true := by decide +kernel
  have e := h 0 3 unitWaits (filmed unitWaits) (by decide +kernel)
  cases hu : unitWaits.nextUnit with
  | none => exact kept (e.1 ((servedNext rfl).trans (by simp [VidCtx.hasPicture, hu, d])))
  | some x =>
    have k := e.2.1 x.1 x.2 ((servedNext rfl).trans (by simp [VidCtx.hasPicture, hu, d])) (by decide +kernel) rfl rfl rfl hu
    cases hf : VidCheck.fits unitWaits.params x.2.seq with
    | true => exact done (k.2 hf)
    | false => exact done (k.1 hf)

/-- No error stands in the cold tier. -/
theorem coldClean {s : State} {a n : Nat} (h : s.mem.ddrErr = []) : Claims.ColdClean s a n := by
  intro e he
  rw [h] at he
  cases he

/-- A frame that its port takes: what is left of it after link security, and the checks of its addresses. -/
theorem received {s : State} {port i : Nat} {frame : Bytes} {d : Datagram} {e : StreamEntry} {x : StreamPort}
    (h : ∃ r, (s.sport port).receive frame = some (r, x) ∧ Eth.datagram (Eth.src frame) r = some d)
    (k : (decide (port ≤ 1) && Eth.dst frame == s.portMac port && d.vlan == some (s.portAddr port).vid && s.ownAddr port d.dstIp
      && s.entryOf port d == some (i, e)) = true) : Claims.Received s port frame d i e x := by
  simp only [Bool.and_eq_true, decide_eq_true_eq, beq_iff_eq] at k
  obtain ⟨⟨⟨⟨a, b⟩, c⟩, f⟩, g⟩ := k
  exact ⟨a, h, b, fun v w => Option.some.inj (w.symm.trans c), f, g⟩

/-- Port S0 with a secure channel under an all-zero key: the next packet number to send, and the highest received. -/
def secure (pn high : Nat) : StreamPort := {
  macsec := true, rxSa := [(0, some { sak := zeros 32 })], txSa := [(0, some { sak := zeros 32, pn := pn })], rxPn := [(0, high)] }
def linkSecure (pn : Nat) : State := (streamed (entry 2 1 4000 0 2 0) boundary0).setSport 0 (secure pn 4)

/-- `whoHas` under a SecTAG with packet number 5, authenticated and not encrypted; its ICV is what AES-256-GCM gives. -/
def asksIcv : Bytes := [19, 23, 147, 171, 70, 106, 126, 193, 201, 12, 84, 48, 36, 247, 197, 110]
def asks : Bytes := whoHas.take 12 ++ [0x88, 0xE5, 0, 34] ++ be 4 5 ++ whoHas.drop 12 ++ asksIcv

/-- No log write is queued where no function holds anything. -/
theorem noInputs {s : State} (h : s.fns = []) : ∀ f e, e ∈ (s.fn f).inch → e.2.writing = [] := by
  intro f e he
  simp [State.fn, Sp.get, h] at he

def atStreamPortsDiscardAndAnswer1 : State := streamed (entry 2 1 4001 0 2 0) boundary0
def atStreamPortsDiscardAndAnswer2 : State := streamed (entry 2 1 4000 0 2 0) boundary0

/-- The hypotheses of StreamPortsDiscardAndAnswer are met: each clause applies to a state. -/
theorem test_StreamPortsDiscardAndAnswer_met (h : Claims.StreamPortsDiscardAndAnswer) :
    Done (.streamFrameDiscard 0 (gram [])) atStreamPortsDiscardAndAnswer1
    ∧ Done (.sensorDatagram 0 (gram [])) atStreamPortsDiscardAndAnswer1
    ∧ Done (.rtpDatagram 0 (gram [])) atStreamPortsDiscardAndAnswer1
    ∧ Done (.reflexDatagram 0 (gram [])) atStreamPortsDiscardAndAnswer1
    ∧ Done (.sensorDatagram 0 (onVlan 8 [])) atStreamPortsDiscardAndAnswer2
    ∧ Done (.sensorDatagram 0 [1, 2]) atStreamPortsDiscardAndAnswer2
    ∧ Done (.sensorDatagram 0 whoHas) atStreamPortsDiscardAndAnswer2
    ∧ Done (.addressResolution 0 (beNat (whoHas.take 6)) (whoHas.drop 6)) atStreamPortsDiscardAndAnswer2
    ∧ Done (.addressResolution 0 (beNat (asks.take 6)) (asks.drop 6)) (linkSecure 9)
    ∧ Done (.addressResolution 0 (beNat (asks.take 6)) (asks.drop 6)) (linkSecure 0xFFFFFFF0)
    ∧ Done (.addressResolution 1 (beNat (whoHas.take 6)) (whoHas.drop 6)) atStreamPortsDiscardAndAnswer2
    ∧ Done (.addressResolution 2 (beNat (whoHas.take 6)) (whoHas.drop 6)) atStreamPortsDiscardAndAnswer2 := by
  refine ⟨done ((h.1 0 (gram []) atStreamPortsDiscardAndAnswer1 ?_ (Or.inr ⟨(gram []).drop 12, {}, by decide +kernel, Or.inr ⟨parsed [],
    by decide +kernel, Or.inr (Or.inr (Or.inr ?_))⟩⟩) (.streamFrameDiscard 0 (gram [])) (Or.inl rfl)).1 ?_),
    done ((h.1 0 (gram []) atStreamPortsDiscardAndAnswer1 ?_ (Or.inr ⟨(gram []).drop 12, {}, by decide +kernel, Or.inr ⟨parsed [],
      by decide +kernel, Or.inr (Or.inr (Or.inr ?_))⟩⟩) (.sensorDatagram 0 (gram [])) (Or.inr (Or.inl rfl))).1 ?_),
    done ((h.1 0 (gram []) atStreamPortsDiscardAndAnswer1 ?_ (Or.inr ⟨(gram []).drop 12, {}, by decide +kernel, Or.inr ⟨parsed [],
      by decide +kernel, Or.inr (Or.inr (Or.inr ?_))⟩⟩) (.rtpDatagram 0 (gram [])) (Or.inr (Or.inr (Or.inl rfl)))).1 ?_),
    done ((h.1 0 (gram []) atStreamPortsDiscardAndAnswer1 ?_ (Or.inr ⟨(gram []).drop 12, {}, by decide +kernel, Or.inr ⟨parsed [],
      by decide +kernel, Or.inr (Or.inr (Or.inr ?_))⟩⟩) (.reflexDatagram 0 (gram [])) (Or.inr (Or.inr (Or.inr rfl)))).1 ?_),
    done ((h.1 0 (onVlan 8 []) atStreamPortsDiscardAndAnswer2 ?_ (Or.inr ⟨(onVlan 8 []).drop 12, {}, by decide +kernel, Or.inr
      ⟨{ parsed [] with vlan := some 8 }, by decide +kernel, Or.inr (Or.inl ⟨8, rfl, by decide +kernel⟩)⟩⟩) (.sensorDatagram 0 (onVlan 8
      [])) (Or.inr (Or.inl rfl))).1 ?_),
    done ((h.1 0 [1, 2] atStreamPortsDiscardAndAnswer2 ?_ (Or.inl ?_) (.sensorDatagram 0 [1, 2]) (Or.inr (Or.inl rfl))).1 ?_),
    kept ((h.1 0 whoHas atStreamPortsDiscardAndAnswer2 ?_ (Or.inr ⟨whoHas.drop 12, {}, by decide +kernel, Or.inl ?_⟩) (.sensorDatagram 0
      whoHas) (Or.inr (Or.inl rfl))).2 ((some 7, 0xFFFF0A000001, 0xFFFF0A000005), {}) ?_),
    done (((h.2 0 (beNat (whoHas.take 6)) (whoHas.drop 6) atStreamPortsDiscardAndAnswer2 ?_).1 (some 7) 0xFFFF0A000001 0xFFFF0A000005 {}
      ?_).1 ?_),
    done (((h.2 0 (beNat (asks.take 6)) (asks.drop 6) (linkSecure 9) ?_).1 (some 7) 0xFFFF0A000001 0xFFFF0A000005 (secure 9 5) ?_).2.1
      { sak := zeros 32, pn := 9 } ?_ ?_ ?_),
    done (((h.2 0 (beNat (asks.take 6)) (asks.drop 6) (linkSecure 0xFFFFFFF0) ?_).1 (some 7) 0xFFFF0A000001 0xFFFF0A000005 (secure
      0xFFFFFFF0 5) ?_).2.2 { sak := zeros 32, pn := 0xFFFFFFF0 } ?_ ?_ ?_),
    done ((h.2 1 (beNat (whoHas.take 6)) (whoHas.drop 6) atStreamPortsDiscardAndAnswer2 ?_).2.1 ?_ ?_),
    kept ((h.2 2 (beNat (whoHas.take 6)) (whoHas.drop 6) atStreamPortsDiscardAndAnswer2 ?_).2.2 ?_)⟩ <;> decide +kernel

def atSensorAndReflexFramesQueue1 : State := { (reflexIn { st := .released }) with reflexq := [(2, [{}, {}, {}, {}])] }

/-- The hypotheses of SensorAndReflexFramesQueue are met: each clause applies to a state. -/
theorem test_SensorAndReflexFramesQueue_met (h : Claims.SensorAndReflexFramesQueue) :
    Done (.sensorDatagram 0 (gram (kigrim 0 9))) sensorIn
    ∧ Done (.sensorDatagram 0 (gram (kigrim 0 4))) sensorIn
    ∧ Done (.reflexDatagram 0 (gram (kigrim 8 4))) (reflexIn { st := .released })
    ∧ Done (.reflexDatagram 0 (gram (kigrim 8 4))) (reflexIn {})
    ∧ Done (.reflexDatagram 0 (gram (kigrim 8 4))) atSensorAndReflexFramesQueue1 := by
  refine ⟨done ((h 0 (gram (kigrim 0 9)) (parsed (kigrim 0 9)) 4 (entry 2 1 4000 0 2 0) {} sensorIn (received ⟨(gram (kigrim 0 9)).drop
    12, by decide +kernel, by decide +kernel⟩ ?_) ?_).1 ?_ ?_ ?_ ?_ ?_),
    done ((h 0 (gram (kigrim 0 4)) (parsed (kigrim 0 4)) 4 (entry 2 1 4000 0 2 0) {} sensorIn (received ⟨(gram (kigrim 0 4)).drop 12,
      by decide +kernel, by decide +kernel⟩ ?_) ?_).2.1 ?_ ?_ ?_ ?_),
    done ((h 0 (gram (kigrim 8 4)) (parsed (kigrim 8 4)) 4 (entry 3 1 4000 0 2 0) {} (reflexIn { st := .released }) (received ⟨(gram
      (kigrim 8 4)).drop 12, by decide +kernel, by decide +kernel⟩ ?_) ?_).2.2.1 ?_ ?_ ?_ ?_),
    done ((h 0 (gram (kigrim 8 4)) (parsed (kigrim 8 4)) 4 (entry 3 1 4000 0 2 0) {} (reflexIn {}) (received ⟨(gram (kigrim 8 4)).drop
      12, by decide +kernel, by decide +kernel⟩ ?_) ?_).2.2.2 ?_ ?_ (Or.inl ?_)),
    done ((h 0 (gram (kigrim 8 4)) (parsed (kigrim 8 4)) 4 (entry 3 1 4000 0 2 0) {} atSensorAndReflexFramesQueue1 (received ⟨(gram
      (kigrim 8 4)).drop 12, by decide +kernel, by decide +kernel⟩ ?_) ?_).2.2.2 ?_ ?_ (Or.inr ?_))⟩ <;> decide +kernel

def atRtpPacketsAndStreamDeadlines1 : State := rtpIn ({ rtpEntry with rtpNext := some 9, window := [] })
def atRtpPacketsAndStreamDeadlines2 : State := rtpIn ({ rtpEntry with rtpNext := some 8, window := [(9, rtp9)] })
def atRtpPacketsAndStreamDeadlines3 : State :=
  (with0 {}).setStream 4 (some { entry 2 1 4000 0 2 0 with silence := some 1000000, reflexDl := [1000000], lat := [(3, 1000000)] })
def atRtpPacketsAndStreamDeadlines4 : State :=
  (with0 {}).setStream 4 (some { entry 2 1 4000 0 2 0 with silence := some 900000, reflexDl := [999999], lat := [(3, 4)] })

/-- The hypotheses of RtpPacketsAndStreamDeadlines are met: each clause applies to a state. -/
theorem test_RtpPacketsAndStreamDeadlines_met (h : Claims.RtpPacketsAndStreamDeadlines) :
    Done (.rtpDatagram 0 (gram rtp9)) (rtpIn (rtpEntry))
    ∧ Done (.rtpDatagram 0 (gram rtp9)) atRtpPacketsAndStreamDeadlines1
    ∧ Done (.rtpDatagram 0 (gram rtp9)) atRtpPacketsAndStreamDeadlines2
    ∧ Done (.streamDeadlineExpiry 4 .silence) atRtpPacketsAndStreamDeadlines3
    ∧ Done (.streamDeadlineExpiry 4 .silence) atRtpPacketsAndStreamDeadlines4
    ∧ Done (.streamDeadlineExpiry 4 .reflex) atRtpPacketsAndStreamDeadlines3
    ∧ Done (.streamDeadlineExpiry 4 .reflex) atRtpPacketsAndStreamDeadlines4
    ∧ Done (.streamDeadlineExpiry 4 .picture) atRtpPacketsAndStreamDeadlines3
    ∧ Done (.streamDeadlineExpiry 4 .picture) atRtpPacketsAndStreamDeadlines4 := by
  refine ⟨done ((h.1 0 (gram rtp9) (parsed rtp9) 4 (rtpEntry) {} 0 3 film (rtpIn (rtpEntry)) (received ⟨(gram rtp9).drop 12,
    by decide +kernel, by decide +kernel⟩ ?_) ?_ ?_ ?_ ?_ ?_ ?_ (Or.inl ?_) (Or.inl ?_) (Or.inl ?_)).1 ?_ (Or.inl ?_) ?_ ?_ ?_ ?_ ?_),
    done ((h.1 0 (gram rtp9) (parsed rtp9) 4 ({ rtpEntry with rtpNext := some 9, window := [] }) {} 0 3 film
      atRtpPacketsAndStreamDeadlines1 (received ⟨(gram rtp9).drop 12, by decide +kernel, by decide +kernel⟩ ?_) ?_ ?_ ?_ ?_ ?_ ?_
      (Or.inl ?_) (Or.inl ?_) (Or.inl ?_)).1 ?_ (Or.inr ?_) ?_ ?_ ?_ ?_ ?_),
    done ((h.1 0 (gram rtp9) (parsed rtp9) 4 ({ rtpEntry with rtpNext := some 8, window := [(9, rtp9)] }) {} 0 3 film
      atRtpPacketsAndStreamDeadlines2 (received ⟨(gram rtp9).drop 12, by decide +kernel, by decide +kernel⟩ ?_) ?_ ?_ ?_ ?_ ?_ ?_
      (Or.inl ?_) (Or.inl ?_) (Or.inl ?_)).2 (⟨rtp9, by decide +kernel⟩)),
    kept (((h.2 4 1000000 { entry 2 1 4000 0 2 0 with silence := some 1000000, reflexDl := [1000000], lat := [(3, 1000000)] }
      atRtpPacketsAndStreamDeadlines3 ?_ ?_).1 ?_).1 ?_),
    done (((h.2 4 900000 { entry 2 1 4000 0 2 0 with silence := some 900000, reflexDl := [999999], lat := [(3, 4)] }
      atRtpPacketsAndStreamDeadlines4 ?_ ?_).1 ?_).2 ?_),
    kept (((h.2 4 1000000 { entry 2 1 4000 0 2 0 with silence := some 1000000, reflexDl := [1000000], lat := [(3, 1000000)] }
      atRtpPacketsAndStreamDeadlines3 ?_ ?_).2.1 ?_).1 ?_),
    done (((h.2 4 999999 { entry 2 1 4000 0 2 0 with silence := some 900000, reflexDl := [999999], lat := [(3, 4)] }
      atRtpPacketsAndStreamDeadlines4 ?_ ?_).2.1 ?_).2 ?_),
    kept (((h.2 4 1000000 { entry 2 1 4000 0 2 0 with silence := some 1000000, reflexDl := [1000000], lat := [(3, 1000000)] }
      atRtpPacketsAndStreamDeadlines3 ?_ ?_).2.2 3 ?_).1 ?_),
    done (((h.2 4 4 { entry 2 1 4000 0 2 0 with silence := some 900000, reflexDl := [999999], lat := [(3, 4)] }
      atRtpPacketsAndStreamDeadlines4 ?_ ?_).2.2 3 ?_).2 ?_)⟩ <;> decide +kernel

def atLinksTrainRemapAndIdentify1 : State := linked 3 { up := true, width := 4, lldpAt := none }
def atLinksTrainRemapAndIdentify2 : State :=
  linked 3 { up := true, width := 4, lldpAt := some 0, far := some (.tlv 5 6 2), farValid := true, farExpiry := 1000000 }
def atLinksTrainRemapAndIdentify3 : State := linked 3 {
  retired := [2], far := some (.tlv 5 6 2), farValid := true, farExpiry := 1000001
  losses := [(1, [999000, 999100, 999200]), (3, [5])] }

/-- The hypotheses of LinksTrainRemapAndIdentify are met: each clause applies to a state. -/
theorem test_LinksTrainRemapAndIdentify_met (h : Obligations.LinksTrainRemapAndIdentify) :
    Done (.lldpTransmit 3) atLinksTrainRemapAndIdentify1
    ∧ Done (.lldpTransmit 3) (linked 3 {})
    ∧ Done (.lldpReceive 3 4 (.tlv 5 6 2)) atLinksTrainRemapAndIdentify1
    ∧ Done (.lldpReceive 3 4 (.tlv 5 6 2)) atLinksTrainRemapAndIdentify2
    ∧ Done (.lldpReceive 3 4 (.tlv 9 6 2)) atLinksTrainRemapAndIdentify2
    ∧ Done (.lldpExpiry 3) atLinksTrainRemapAndIdentify2
    ∧ Done (.lldpReceive 3 0 (.tlv 5 6 2)) atLinksTrainRemapAndIdentify2
    ∧ Done (.lldpExpiry 3) atLinksTrainRemapAndIdentify3
    ∧ Done (.remapWord 3 (some (0xE7, 3, 0xFF, 0))) atLinksTrainRemapAndIdentify3
    ∧ Done (.remapWord 0 none) (linked 0 {})
    ∧ Done (.linkTrained 3 4) (linked 3 {})
    ∧ Done (.linkTrained 1 7) (linked 1 {})
    ∧ Done (.linkDown 3) atLinksTrainRemapAndIdentify2
    ∧ Done (.linkDown 3) atLinksTrainRemapAndIdentify3
    ∧ Done (.laneLockLoss 3 3) atLinksTrainRemapAndIdentify3
    ∧ Done (.laneLockLoss 3 1) atLinksTrainRemapAndIdentify3 := by
  refine ⟨done ((h 3 atLinksTrainRemapAndIdentify1).1 ?_ ?_ ?_ ?_ (Or.inl ?_)),
    kept ((h 3 (linked 3 {})).2.1 ?_),
    done (((h 3 atLinksTrainRemapAndIdentify1).2.2.1 4 (.tlv 5 6 2) ?_ ?_ ?_).1 (Or.inl ?_)),
    done (((h 3 atLinksTrainRemapAndIdentify2).2.2.1 4 (.tlv 5 6 2) ?_ ?_ ?_).1 (Or.inr ?_)),
    done (((h 3 atLinksTrainRemapAndIdentify2).2.2.1 4 (.tlv 9 6 2) ?_ ?_ ?_).2 (.tlv 5 6 2) ?_ ?_),
    done (((h 3 atLinksTrainRemapAndIdentify2).2.2.2.1 (.tlv 5 6 2) ?_ ?_ ?_ ?_).1 ),
    done (((h 3 atLinksTrainRemapAndIdentify2).2.2.2.1 (.tlv 5 6 2) ?_ ?_ ?_ ?_).2 ),
    kept ((h 3 atLinksTrainRemapAndIdentify3).2.2.2.2.1 ?_),
    done ((h 3 atLinksTrainRemapAndIdentify3).2.2.2.2.2.1 (some (0xE7, 3, 0xFF, 0)) ?_ ?_ ?_),
    done ((h 0 (linked 0 {})).2.2.2.2.2.1 none ?_ ?_ ?_),
    done ((h 3 (linked 3 {})).2.2.2.2.2.2.1 4 ?_ ?_ ?_ ?_ ?_),
    done ((h 1 (linked 1 {})).2.2.2.2.2.2.2.1 7 ?_ ?_ ?_ ?_ ?_ ?_),
    done ((h 3 atLinksTrainRemapAndIdentify2).2.2.2.2.2.2.2.2.1 ?_ ?_),
    kept ((h 3 atLinksTrainRemapAndIdentify3).2.2.2.2.2.2.2.2.2.1 ?_),
    done (((h 3 atLinksTrainRemapAndIdentify3).2.2.2.2.2.2.2.2.2.2 3 ?_ ?_ ?_).1 ?_),
    done (((h 3 atLinksTrainRemapAndIdentify3).2.2.2.2.2.2.2.2.2.2 1 ?_ ?_ ?_).2 ?_)⟩ <;> decide +kernel

def atDecodedPicturesReachTheHost1 : State := filmed ({ film with out := [shot] })
def atDecodedPicturesReachTheHost2 : State := filmed ({ film with out := [shot], used := [0, 1] })
def atDecodedPicturesReachTheHost3 : State := filmed ({ film with shaping := some (1, shot), used := [1] })
def atDecodedPicturesReachTheHost4 : State := filmed ({ film with used := [0, 1], shaped := [(0, some 0)] })

/-- The hypotheses of DecodedPicturesReachTheHost are met: each clause applies to a state. -/
theorem test_DecodedPicturesReachTheHost_met (h : Claims.DecodedPicturesReachTheHost) :
    Done (.pictureDecode 0) (filmed unitWaits)
    ∧ Done (.shapePicture 0 3) atDecodedPicturesReachTheHost1
    ∧ Done (.shapePicture 0 3) atDecodedPicturesReachTheHost2
    ∧ Done (.pictureReady 0 3) atDecodedPicturesReachTheHost3
    ∧ Done (.bufferSetRelease 0 3 1) atDecodedPicturesReachTheHost4 := by
  refine ⟨decodes h,
    done ((h 0 3 ({ film with out := [shot] }) atDecodedPicturesReachTheHost1 ?_).2.2.1 shot [] ?_ ?_ ?_ ),
    done ((h 0 3 ({ film with out := [shot], used := [0, 1] }) atDecodedPicturesReachTheHost2 ?_).2.2.1 shot [] ?_ ?_ ?_ ),
    done ((h 0 3 ({ film with shaping := some (1, shot), used := [1] }) atDecodedPicturesReachTheHost3 ?_).2.2.2.1 1 shot ?_ ?_),
    done ((h 0 3 ({ film with used := [0, 1], shaped := [(0, some 0)] }) atDecodedPicturesReachTheHost4 ?_).2.2.2.2 1 ?_ ?_
      (fun q h => by cases h) ?_)⟩ <;> decide +kernel

def atEncodedSlicesLeave1 : State := filmed ({ vctx := 5, params := encBlock, jobs := [{ set := 1 }] })
def atEncodedSlicesLeave2 : State := filmed ({ vctx := 5, params := encBlock, jobs := [{ set := 1 }], slices := [(0, [1]), (2048, [2])] })
def atEncodedSlicesLeave3 : State :=
  filmed ({ vctx := 5, params := encBlock, jobs := [{ set := 1 }], slices := [(2048, [2])], used := [1] })

/-- The hypotheses of EncodedSlicesLeave are met: each clause applies to a state. -/
theorem test_EncodedSlicesLeave_met (h : Claims.EncodedSlicesLeave) :
    Done (.encodePicture 0 3) atEncodedSlicesLeave1
    ∧ Done (.encodePicture 0 3) atEncodedSlicesLeave2
    ∧ Done (.sliceCoded 0 3) atEncodedSlicesLeave2
    ∧ Done (.sliceCoded 0 3) atEncodedSlicesLeave3 := by
  refine ⟨done ((h 0 3 ({ vctx := 5, params := encBlock, jobs := [{ set := 1 }] }) atEncodedSlicesLeave1 ?_).1 { set := 1 } [] ?_ ?_
    (coldClean rfl)),
    kept ((h 0 3 ({ vctx := 5, params := encBlock, jobs := [{ set := 1 }], slices := [(0, [1]), (2048, [2])] }) atEncodedSlicesLeave2
      ?_).2.1 ?_),
    done ((h 0 3 ({ vctx := 5, params := encBlock, jobs := [{ set := 1 }], slices := [(0, [1]), (2048, [2])] }) atEncodedSlicesLeave2
      ?_).2.2 0 [1] [(2048, [2])] ?_ ?_),
    done ((h 0 3 ({ vctx := 5, params := encBlock, jobs := [{ set := 1 }], slices := [(2048, [2])], used := [1] }) atEncodedSlicesLeave3
      ?_).2.2 2048 [2] [] ?_ ?_)⟩ <;> decide +kernel

def atColdTierSparingAndUpkeep1 : State := onChan { writes := [(5, 1), (6, 2)] }
def atColdTierSparingAndUpkeep2 : State := onChan { owner := some 0, trained := true }
def atColdTierSparingAndUpkeep3 : State := onChan { sp := .spared, failed := 4 }
def atColdTierSparingAndUpkeep4 : State := onChan { sp := .copying, copyDev := some 4 }

/-- The hypotheses of ColdTierSparingAndUpkeep are met: each clause applies to a state. -/
theorem test_ColdTierSparingAndUpkeep_met (h : Obligations.ColdTierSparingAndUpkeep) :
    Done (.ddrWriteAck 2) atColdTierSparingAndUpkeep1
    ∧ Done (.deviceFailed 2 17) atColdTierSparingAndUpkeep2
    ∧ Done (.deviceFailed 2 18) atColdTierSparingAndUpkeep3
    ∧ Done (.spareCopyComplete 2) atColdTierSparingAndUpkeep4
    ∧ Done (.ddrPatrolRead 2 9 7 []) atColdTierSparingAndUpkeep2
    ∧ Done (.ddrPatrolRead 2 9 7 [3]) atColdTierSparingAndUpkeep2
    ∧ Done (.ddrPatrolRead 2 9 7 [3, 4]) atColdTierSparingAndUpkeep2
    ∧ Done (.zqCalibration 2) atColdTierSparingAndUpkeep2
    ∧ Done (.zqCalibration 2) (onChan { selfRef := true })
    ∧ Done (.selfRefreshChange 2) atColdTierSparingAndUpkeep2
    ∧ Done (.selfRefreshChange 2) atColdTierSparingAndUpkeep2
    ∧ Done (.ddrOwnWrite 2 9) atColdTierSparingAndUpkeep2
    ∧ Done (.ddrOwnWrite 2 9) channel2 := by
  refine ⟨done ((h 2 atColdTierSparingAndUpkeep1 ?_).1 5 1 [(6, 2)] ?_),
    done ((h 2 atColdTierSparingAndUpkeep2 ?_).2.1 17 ?_ ?_ ?_ ?_ ?_),
    done ((h 2 atColdTierSparingAndUpkeep3 ?_).2.2.1 18 ?_ ?_ ?_ ?_ (Or.inr ?_)),
    done ((h 2 atColdTierSparingAndUpkeep4 ?_).2.2.2.1 4 ?_ ?_),
    done (((h 2 atColdTierSparingAndUpkeep2 ?_).2.2.2.2.1 9 7 ?_ ?_ ?_ ?_ ?_ ?_).1 ),
    done (((h 2 atColdTierSparingAndUpkeep2 ?_).2.2.2.2.1 9 7 ?_ ?_ ?_ ?_ ?_ ?_).2.1 3 ?_ ?_ ?_ (Or.inl ?_)),
    done (((h 2 atColdTierSparingAndUpkeep2 ?_).2.2.2.2.1 9 7 ?_ ?_ ?_ ?_ ?_ ?_).2.2 3 4 ?_ ?_ ?_ ?_ ?_),
    done ((h 2 atColdTierSparingAndUpkeep2 ?_).2.2.2.2.2.1 ?_ ?_ ?_ (Or.inl ?_)),
    kept ((h 2 (onChan { selfRef := true }) ?_).2.2.2.2.2.2.1 ?_),
    done ((h 2 atColdTierSparingAndUpkeep2 ?_).2.2.2.2.2.2.2.1 ?_ ?_ (noInputs rfl)),
    done ((h 2 atColdTierSparingAndUpkeep2 ?_).2.2.2.2.2.2.2.2.1 ?_),
    done ((h 2 atColdTierSparingAndUpkeep2 ?_).2.2.2.2.2.2.2.2.2.1 9 (fun o h => by cases h; decide +kernel) (fun o h => by cases h)),
    kept ((h 2 channel2 ?_).2.2.2.2.2.2.2.2.2.2 9 0 ?_ ?_)⟩ <;> decide +kernel

/-- The hypotheses of DomeAperturesReachMemory are met: each clause applies to a state. -/
theorem test_DomeAperturesReachMemory_met (h : Obligations.DomeAperturesReachMemory) :
    Done (.panApertureAccess 3 (0x200000000 + (5 * 131072 + 8)) (some 7)) apertured
    ∧ Done (.panApertureAccess 3 (0x200000000 + (5 * 131072 + 8)) none) apertured
    ∧ Done (.panApertureAccess 3 (0x200000000 + (5 * 131072 + 8)) (some 7)) copied
    ∧ Done (.panApertureAccess 3 (0x200000000 + (5 * 131072 + 9)) none) apertured
    ∧ Done (.panApertureAccess 3 (0x200000000 + (6 * 131072)) (some 7)) apertured
    ∧ Done (.coldApertureAccess 3 (0x1000000000 + 8) (some 7)) apertured
    ∧ Done (.coldApertureAccess 3 (0x1000000000 + (524288 * 131072 + 16)) (some 7)) apertured
    ∧ Done (.coldApertureAccess 3 (0x1000000000 + (524288 * 131072 + 16)) none) apertured := by
  refine ⟨done ((h 3 (5 * 131072 + 8) apertured ?_).1 ?_ ?_ 7 ?_ ?_),
    done ((h 3 (5 * 131072 + 8) apertured ?_).2.1 ?_ ?_ ?_ ?_ ?_),
    kept ((h 3 (5 * 131072 + 8) copied ?_).2.2.1 (some 7) ?_ ?_ ?_ ?_),
    done ((h 3 (5 * 131072 + 9) apertured ?_).2.2.2.1 none ?_ (Or.inl ?_)),
    done ((h 3 (6 * 131072) apertured ?_).2.2.2.1 (some 7) ?_ (Or.inr ?_)),
    done ((h 3 (8) apertured ?_).2.2.2.2.1 (some 7) ?_ (Or.inl ?_)),
    done ((h 3 (524288 * 131072 + 16) apertured ?_).2.2.2.2.2.1 7 3 ?_ ?_ ?_ (coldClean rfl)),
    done ((h 3 (524288 * 131072 + 16) apertured ?_).2.2.2.2.2.2 3 ?_ ?_ ?_ (coldClean rfl))⟩ <;> decide +kernel

def atInterruptClaim1 : State := cored { st := .run, claim := some 2 } []

/-- The hypotheses of InterruptClaim are met: each clause applies to a state. -/
theorem test_InterruptClaim_met (h : Obligations.InterruptClaim) :
    Done (.dicClaim 3) (cored { st := .run } [1, 2])
    ∧ Done (.dicClaim 3) rdy
    ∧ Done (.dicClaim 3) atInterruptClaim1 := by
  refine ⟨done ((h 3 (cored { st := .run } [1, 2]) ?_ ?_).1 2 ?_ ?_ ?_ (⟨by decide +kernel, by decide +kernel, by decide +kernel,
    by decide +kernel⟩) (lower2 (fun h => absurd h.1 (by decide +kernel)))),
    done ((h 3 rdy ?_ ?_).2.1 ?_ (fun m _ _ h => nomatch (show m ∈ ([] : List Nat) from h.1))),
    done ((h 3 atInterruptClaim1 ?_ ?_).2.2 2 ?_)⟩ <;> decide +kernel

def atInterruptCompletion1 : State := cored { st := .run, claim := some 2 } []
def atInterruptCompletion2 : State := cored { st := .run, claim := some 149, timer := 5 } []

/-- The hypotheses of InterruptCompletion are met: each clause applies to a state. -/
theorem test_InterruptCompletion_met (h : Obligations.InterruptCompletion) :
    Done (.dicComplete 3 2) atInterruptCompletion1
    ∧ Done (.dicComplete 3 149) atInterruptCompletion2
    ∧ Done (.dicComplete 3 149) atInterruptCompletion1 := by
  refine ⟨done ((h 3 2 atInterruptCompletion1 ?_).1 2 ?_ ?_ ?_),
    done ((h 3 149 atInterruptCompletion2 ?_).1 149 ?_ ?_ ?_),
    done ((h 3 149 atInterruptCompletion1 ?_).2 ?_)⟩ <;> decide +kernel

def atSoftInterruptsAndTimers1 : State := cored { st := .run, timer := 5 } []

/-- The hypotheses of SoftInterruptsAndTimers are met: each clause applies to a state. -/
theorem test_SoftInterruptsAndTimers_met (h : Claims.SoftInterruptsAndTimers) :
    Done (.dicSoftWrite 3 3) atSoftInterruptsAndTimers1
    ∧ Done (.dicTimerExpiry 3) atSoftInterruptsAndTimers1 := by
  refine ⟨done ((h 3 atSoftInterruptsAndTimers1 ?_).1 3 ),
    kept ((h 3 atSoftInterruptsAndTimers1 ?_).2.1 )⟩ <;> decide +kernel

def atDomeCoresStartAndFail1 : State := cored { st := .run, kick := 999999 } []
def atDomeCoresStartAndFail2 : State := { rdy with board := { removed := true } }

/-- The hypotheses of DomeCoresStartAndFail are met: each clause applies to a state. -/
theorem test_DomeCoresStartAndFail_met (h : Claims.DomeCoresStartAndFail) :
    Done (.domeStart 11) rdy
    ∧ Done (.domeStart 11) atDomeCoresStartAndFail1
    ∧ Done (.domeKick 3) atDomeCoresStartAndFail1
    ∧ Done (.domeWatchdogExpiry 3) atDomeCoresStartAndFail1
    ∧ Done (.domeWatchdogExpiry 3) (cored { st := .run } [])
    ∧ Done (.domeCacheUe 3) (cored { st := .run } [])
    ∧ Done (.domeFail 11) (cored { st := .run } [])
    ∧ Done .domeMemoryUe onBoard
    ∧ Done .domeMemoryUe atDomeCoresStartAndFail2 := by
  refine ⟨done (((h 3 rdy ?_).1 11 ?_ ?_).1 ?_),
    done (((h 3 atDomeCoresStartAndFail1 ?_).1 11 ?_ ?_).2 ?_),
    done ((h 3 atDomeCoresStartAndFail1 ?_).2.1 ),
    kept ((h 3 atDomeCoresStartAndFail1 ?_).2.2.1 ?_ ?_),
    done ((h 3 (cored { st := .run } []) ?_).2.2.2.1 ?_ (.domeWatchdogExpiry 3) 2 (Or.inl ⟨rfl, rfl, by decide +kernel⟩)),
    done ((h 3 (cored { st := .run } []) ?_).2.2.2.1 ?_ (.domeCacheUe 3) 2 (Or.inr (Or.inl ⟨rfl, rfl⟩))),
    done ((h 3 (cored { st := .run } []) ?_).2.2.2.1 ?_ (.domeFail 11) 3 (Or.inr (Or.inr ⟨11, rfl, by decide +kernel, by decide +kernel,
      rfl⟩))),
    done ((h 3 onBoard ?_).2.2.2.2.1 ?_ ?_),
    done ((h 3 atDomeCoresStartAndFail2 ?_).2.2.2.2.2 ?_)⟩ <;> decide +kernel

/-- The ready module with its power state `w`. -/
def powered (w : Power) : State := { rdy with power := w }

/-- Partition 0 with a power controller. -/
def ruled (w : PartPower) : State := with0 { pw := w }

/-- Block 5 alone, and block 0 under partition 0. -/
def blockIs (k : Block) : State := rdy.setBlock 5 k
def ownBlock (k : Block) : State := boundary0.setBlock 0 k

/-- The module with a clock. -/
def clocked (c : Clock) : State := { rdy with clk := c }

/-- Bring-up with some phases ended. -/
def waking (ended : List Nat) : State := { rdy with bru := { ended := ended, depth := 4, kind := 2 } }

/-- Phase 5 comes up with firmware `f` under the key. -/
def booting (f : Firmware) : State := { waking [1, 2] with watch := { fwKey := key1 }, fw := f }
def goodSlot (st : SlotState) : FwSlot := { st := st, version := 9, setVer := 2, image := fwImage }
def badSlot (st : SlotState) : FwSlot := { st := st, version := 8 }

/-- A management frame of slot 2, counter 7, with a payload, signed under `key1`. -/
def order (opc : Nat) (p : Bytes) : Bytes := le 4 0x4554474D ++ [1, 3] ++ le 2 opc ++ [2, 0, 0, 0] ++ le 4 p.length ++ zeros 8 ++ le 8 7 ++ le 8 1
  ++ zeros 8 ++ p ++ sig1

/-- The Watchtower with an operator of a role in slot 2 and a command that it holds. -/
def ordered (role opc : Nat) (p : Bytes) (s : State) : State :=
  { s with watch := { s.watch with oper := [(2, some { role := role, key := key1 })], held := [(order opc p, 4)] } }

/-- The Watchtower before it takes a frame: slot 2's last counter, the last command and its answer. -/
def served (high : Nat) (held : List (Bytes × Nat)) : State := { rdy with watch := {
  oper := [(2, some { role := 1, key := key1 })], ctr := [(2, high)], held := held, lastCmd := [(2, some (order 0x12 []))], lastResp := [(2, some [9])] } }

/-- A licence of 16 blocks and 16 partitions with an ID, signed under `key1`. -/
def licence (id : Nat) : Bytes := le 4 0x45544C49 ++ le 2 1 ++ le 2 0xE700 ++ le 8 1 ++ le 8 id ++ [16, 16, 3] ++ zeros 37 ++ sig1

/-- MACSEC_SAK completes, whatever the wrap holds. -/
theorem sakSet (h : Claims.ManagementStreamsAndResets) {s : State} {c : Bytes × Nat} {rest : List (Bytes × Nat)}
    (m : Claims.Manages s 0x51 1 87 c rest) (a : u8 (Mg.payload c.1) 0 ≤ 1) (b : u8 (Mg.payload c.1) 1 ≤ 1) (d : u8 (Mg.payload c.1) 2 ≤ 3) :
    Done .macsecSak s := by
  have e := (h c rest s).1 m a b d
  cases hu : s.unwrap c.1 7 32 with
  | none => exact done (e.1 hu)
  | some k => exact done (e.2 k hu)

/-- A command that the Watchtower takes next. -/
theorem manages {s : State} {opc role len : Nat} {c : Bytes × Nat} {rest : List (Bytes × Nat)} {k : OperKey}
    (a : s.mgmtAlive = true) (b : s.watch.held = c :: rest) (d : Mg.opc c.1 = opc) (e : Mg.plen c.1 = len)
    (f : s.oper (Mg.keyid c.1) = some k) (g : k.role ≤ role) : Claims.Manages s opc role len c rest :=
  ⟨a, b, d, e, Or.inr ⟨k, f, g⟩⟩

/-- KEY_REVOKE of slot 3, whose key is an observer's. -/
def revokes : State := { rdy with watch := {
  oper := [(2, some { role := 1, key := key1 }), (3, some { role := 3, key := key1 })], held := [(order 0x11 [3], 4)] } }

/-- Slot 2 is the only operator's. -/
theorem lastAdmin : ∀ e k, e ∈ (ordered 1 0x11 [2] rdy).watch.oper → e.1 ≠ u8 (Mg.payload (order 0x11 [2])) 0 → e.2 = some k → k.role ≠ 1 := by
  intro e k he hn
  have : e = (2, some { role := 1, key := key1 }) := List.mem_singleton.mp he
  subst this
  exact absurd (by decide +kernel) hn

/-- Partition 0 with an address on port S0. -/
def addressed : State := { boundary0 with watch := { addrs := [(0, { ipv4 := 1 })] } }

def atCapsPoliciesAndPowerStates1 : State :=
  { (boundary0.setPart 1 { present := true, reflex := true, br0 := 1, br1 := 3, bc1 := 3, pw := { point := 7 } }) with
    bru := { rdy.bru with rebuilding := [] } }
def atCapsPoliciesAndPowerStates2 : State :=
  { (boundary0.setPart 1 { present := true, reflex := true, br0 := 1, br1 := 1, pw := { point := 7 } }) with
    power := { meanIn := 3501 } }
def atCapsPoliciesAndPowerStates3 : State := ruled { st := .p1, idle := true, tol := 9 }
def atCapsPoliciesAndPowerStates4 : State := (ruled { st := .p2, idle := true, tol := 90000 }).setBlock 0 { on := true }
def atCapsPoliciesAndPowerStates5 : State := ruled { st := .p2, idle := true, tol := 89999 }
def atCapsPoliciesAndPowerStates6 : State := ruled { st := .p1, idle := true, tol := 20, idleAt := some 990000 }
def atCapsPoliciesAndPowerStates7 : State := ruled { st := .p1, idle := true, tol := 20, idleAt := some 990001 }
def atCapsPoliciesAndPowerStates8 : State := ruled { st := .p3, waking := true }
def atCapsPoliciesAndPowerStates9 : State := ruled { conflictAt := some 900000 }
def atCapsPoliciesAndPowerStates10 : State := ruled { conflictAt := some 900001 }

/-- The hypotheses of CapsPoliciesAndPowerStates are met: each clause applies to a state. -/
theorem test_CapsPoliciesAndPowerStates_met (h : Claims.CapsPoliciesAndPowerStates) :
    Done (.pwrCapSetWrite 29) rdy
    ∧ Done (.pwrCapSetWrite 141) rdy
    ∧ Done (.pwrCapSetWrite 140) boundary0
    ∧ Done (.pwrCapSetWrite 30) atCapsPoliciesAndPowerStates1
    ∧ Done (.pwrCapSetWrite 30) atCapsPoliciesAndPowerStates2
    ∧ Done (.pwrPolWrite 0 0x1FE00F0) boundary0
    ∧ Done (.pwrPolWrite 0 0x0F) boundary0
    ∧ Done (.pwrTolWrite 0 500) boundary0
    ∧ Done (.pwrTolWrite 0 0) atCapsPoliciesAndPowerStates3
    ∧ Done (.idleWrite 0 1) (ruled { tol := 1, point := 5 })
    ∧ Done (.idleWrite 0 1) (ruled { tol := 0 })
    ∧ Done (.offWrite 0 3) atCapsPoliciesAndPowerStates4
    ∧ Done (.offWrite 0 3) atCapsPoliciesAndPowerStates5
    ∧ Done (.idleHoldExpiry 0) atCapsPoliciesAndPowerStates6
    ∧ Done (.idleHoldExpiry 0) atCapsPoliciesAndPowerStates7
    ∧ Done (.p3ExitDone 0) atCapsPoliciesAndPowerStates8
    ∧ Done (.policyConflict 0) atCapsPoliciesAndPowerStates9
    ∧ Done (.policyConflict 0) atCapsPoliciesAndPowerStates10 := by
  refine ⟨done ((h 0 29 rdy ?_).1 (Or.inl ?_)),
    done ((h 0 141 rdy ?_).1 (Or.inr ?_)),
    done ((h 0 140 boundary0 ?_).2.1 ?_ ?_ ?_ ?_),
    done ((h 0 30 atCapsPoliciesAndPowerStates1 ?_).2.2.1 ?_ ?_ ?_ ?_),
    done ((h 0 30 atCapsPoliciesAndPowerStates2 ?_).2.2.2.1 ?_ ?_ ?_ ?_),
    done ((h 0 0x1FE00F0 boundary0 ?_).2.2.2.2.1 ),
    done ((h 0 0x0F boundary0 ?_).2.2.2.2.1 ),
    done ((h 0 500 boundary0 ?_).2.2.2.2.2.1 (Or.inl ?_)),
    done ((h 0 0 atCapsPoliciesAndPowerStates3 ?_).2.2.2.2.2.2.1 ?_ ?_),
    done (((h 0 1 (ruled { tol := 1, point := 5 }) ?_).2.2.2.2.2.2.2.1 ?_ ?_ ?_ ?_).1 ?_),
    done (((h 0 1 (ruled { tol := 0 }) ?_).2.2.2.2.2.2.2.1 ?_ ?_ ?_ ?_).2 ?_),
    done (((h 0 3 atCapsPoliciesAndPowerStates4 ?_).2.2.2.2.2.2.2.2.1 ?_ ?_ ?_).1 ?_ ?_),
    done (((h 0 3 atCapsPoliciesAndPowerStates5 ?_).2.2.2.2.2.2.2.2.1 ?_ ?_ ?_).2 (Or.inr ?_)),
    done (((h 0 0 atCapsPoliciesAndPowerStates6 ?_).2.2.2.2.2.2.2.2.2.1 990000 ?_ ?_ ?_ ?_).1 ?_),
    kept (((h 0 0 atCapsPoliciesAndPowerStates7 ?_).2.2.2.2.2.2.2.2.2.1 990001 ?_ ?_ ?_ ?_).2 ?_),
    done ((h 0 0 atCapsPoliciesAndPowerStates8 ?_).2.2.2.2.2.2.2.2.2.2.1 ?_ ?_),
    done (((h 0 0 atCapsPoliciesAndPowerStates9 ?_).2.2.2.2.2.2.2.2.2.2.2 900000 ?_ ?_ ?_).1 ?_),
    kept (((h 0 0 atCapsPoliciesAndPowerStates10 ?_).2.2.2.2.2.2.2.2.2.2.2 900001 ?_ ?_ ?_).2 ?_)⟩ <;> decide +kernel

def atPowerIntervalsSamplesAndClimb1 : State :=
  { (ruled { point := 4 }) with power := { lastInt := some 999900, floorNow := 21, capNow := 100 } }
def atPowerIntervalsSamplesAndClimb2 : State := powered { lastInt := some 999901 }
def atPowerIntervalsSamplesAndClimb3 : State := powered { nIn := 999, lastSample := some 999900 }
def atPowerIntervalsSamplesAndClimb4 : State := { (ruled { point := 4, fceil := 9 }) with power := { clampAt := some 989500 } }
def atPowerIntervalsSamplesAndClimb5 : State := { (ruled { point := 4, fceil := 9 }) with power := { clampAt := some 989501 } }
def atPowerIntervalsSamplesAndClimb6 : State := { (ruled { point := 4, fceil := 9 }) with power := { climbAt := some 995000 } }
def atPowerIntervalsSamplesAndClimb7 : State := { (ruled { point := 4, fceil := 9 }) with power := { climbAt := some 995001 } }

/-- The hypotheses of PowerIntervalsSamplesAndClimb are met: each clause applies to a state. -/
theorem test_PowerIntervalsSamplesAndClimb_met (h : Claims.PowerIntervalsSamplesAndClimb) :
    Done (.powerInterval [500, 3] [7]) atPowerIntervalsSamplesAndClimb1
    ∧ Done (.powerInterval [5] []) atPowerIntervalsSamplesAndClimb2
    ∧ Done (.gainUpdate 5 9) rdy
    ∧ Done (.powerSample 54000 100) atPowerIntervalsSamplesAndClimb3
    ∧ Done .clampHoldEnd atPowerIntervalsSamplesAndClimb4
    ∧ Done .clampHoldEnd atPowerIntervalsSamplesAndClimb5
    ∧ Done .clampClimb atPowerIntervalsSamplesAndClimb6
    ∧ Done .clampClimb atPowerIntervalsSamplesAndClimb7 := by
  refine ⟨done (h.1 [500, 3] [7] atPowerIntervalsSamplesAndClimb1 (Or.inr ⟨999900, by decide +kernel, by decide +kernel⟩) ?_ ?_),
    kept (h.2.1 [5] [] 999901 atPowerIntervalsSamplesAndClimb2 ?_ ?_),
    done (h.2.2.1 5 9 rdy (Or.inl ?_) ?_),
    done (h.2.2.2.1 54000 100 atPowerIntervalsSamplesAndClimb3 (Or.inr ⟨999900, by decide +kernel, by decide +kernel⟩)),
    done ((h.2.2.2.2.1 989500 atPowerIntervalsSamplesAndClimb4 ?_).2 ?_),
    kept ((h.2.2.2.2.1 989501 atPowerIntervalsSamplesAndClimb5 ?_).1 ?_),
    done ((h.2.2.2.2.2 995000 atPowerIntervalsSamplesAndClimb6 ?_).2 ?_),
    kept ((h.2.2.2.2.2 995001 atPowerIntervalsSamplesAndClimb7 ?_).1 ?_)⟩ <;> decide +kernel

def atDroopHeatAndCoolant1 : State := ownBlock { on := true, stretch := some 5, latched := some 9, tlimit := 7 }
def atDroopHeatAndCoolant2 : State := ownBlock { stretch := some 999601 }
def atDroopHeatAndCoolant3 : State := ownBlock { stretch := some 999600 }
def atDroopHeatAndCoolant4 : State := ownBlock { point := 15, thermAt := some 990000 }
def atDroopHeatAndCoolant5 : State := ownBlock { hot := true, tlimit := 3 }

/-- The hypotheses of DroopHeatAndCoolant are met: each clause applies to a state. -/
theorem test_DroopHeatAndCoolant_met (h : Obligations.DroopHeatAndCoolant) :
    Done (.droopDetect 0) (ownBlock { on := true })
    ∧ Done (.droopDetect 5) (blockIs { on := true })
    ∧ Done (.stretchEnd 0) atDroopHeatAndCoolant1
    ∧ Done (.droopLong 0 true) atDroopHeatAndCoolant2
    ∧ Done (.droopLong 0 false) atDroopHeatAndCoolant2
    ∧ Done (.droopLong 0 false) atDroopHeatAndCoolant3
    ∧ Done (.thermalLimitStep 0 1000) atDroopHeatAndCoolant4
    ∧ Done (.thermalLimitStep 0 949) atDroopHeatAndCoolant5
    ∧ Done (.thermal 0 1100) (ownBlock { point := 9 })
    ∧ Done (.thermalTrip 0 1200) (ownBlock { point := 9 })
    ∧ Done (.coolant 450 600) (ownBlock {}) := by
  refine ⟨done ((h 0 (ownBlock { on := true }) ?_).1 ?_ ?_),
    done ((h 5 (blockIs { on := true }) ?_).1 ?_ ?_),
    done ((h 0 atDroopHeatAndCoolant1 ?_).2.1 ?_),
    kept ((((h 0 atDroopHeatAndCoolant2 ?_).2.2.1 999601 ?_).1 ?_).1 ),
    kept ((((h 0 atDroopHeatAndCoolant2 ?_).2.2.1 999601 ?_).1 ?_).2 ),
    done (((h 0 atDroopHeatAndCoolant3 ?_).2.2.1 999600 ?_).2 ?_),
    done ((h 0 atDroopHeatAndCoolant4 ?_).2.2.2.1 1000 ?_ (Or.inr ⟨990000, by decide +kernel, by decide +kernel⟩)),
    done ((h 0 atDroopHeatAndCoolant5 ?_).2.2.2.2.1 949 ?_ (Or.inl ?_)),
    done ((h 0 (ownBlock { point := 9 }) ?_).2.2.2.2.2.1 1100 ?_ ?_),
    done ((h 0 (ownBlock { point := 9 }) ?_).2.2.2.2.2.2.1 1200 ?_ ?_ ?_ ?_),
    done ((h 0 (ownBlock {}) ?_).2.2.2.2.2.2.2 450 600 )⟩ <;> decide +kernel

def atClocksTrimAndMeasure1 : State := { rdy with clk := {}, bru := { depth := 5 } }
def atClocksTrimAndMeasure2 : State := clocked { running := true, trimSrc := 1 }
def atClocksTrimAndMeasure3 : State := clocked { running := true, refOk := true, trimLock := true }
def atClocksTrimAndMeasure4 : State := clocked { running := true, onIro := true }
def atClocksTrimAndMeasure5 : State := clocked { running := true, trimSrc := 1, trimLock := true }
def atClocksTrimAndMeasure6 : State := clocked { running := true, refOk := true }
def atClocksTrimAndMeasure7 : State := clocked { trimSrc := 1, trimLock := true }

/-- The hypotheses of ClocksTrimAndMeasure are met: each clause applies to a state. -/
theorem test_ClocksTrimAndMeasure_met (h : Obligations.ClocksTrimAndMeasure) :
    Done (.oscWaitEnd false) atClocksTrimAndMeasure1
    ∧ Done .refclkLost atClocksTrimAndMeasure2
    ∧ Done .refclkLost atClocksTrimAndMeasure3
    ∧ Done .refclkReturn atClocksTrimAndMeasure4
    ∧ Done .trimLost atClocksTrimAndMeasure5
    ∧ Done (.trimLock 65535) atClocksTrimAndMeasure6
    ∧ Done (.trimLock 5) (clocked { running := true })
    ∧ Done (.clkCtlWrite 2) atClocksTrimAndMeasure7
    ∧ Done (.start 1) (clocked { fmcSel := 19 })
    ∧ Done (.start 1) (clocked { fmcSel := 1280 })
    ∧ Done (.start 1) (clocked { fmcStat := 1 })
    ∧ Done (.measurementDone (.count 4294967296)) (clocked { fmcStat := 1 })
    ∧ Done (.measurementDone .noClock) (clocked { fmcStat := 1 }) := by
  refine ⟨done ((h atClocksTrimAndMeasure1).1 false ?_ ?_ ?_ ?_ ?_ ?_ ?_),
    done ((h atClocksTrimAndMeasure2).2.1 ?_ ?_ ?_),
    done ((h atClocksTrimAndMeasure3).2.2.1 ?_ ?_ ?_ ?_),
    done ((h atClocksTrimAndMeasure4).2.2.2.1 ?_ ?_),
    done ((h atClocksTrimAndMeasure5).2.2.2.2.1 ?_ ?_),
    done ((h atClocksTrimAndMeasure6).2.2.2.2.2.1 65535 ?_ ?_),
    kept ((h (clocked { running := true })).2.2.2.2.2.2.1 5 ?_),
    done ((h atClocksTrimAndMeasure7).2.2.2.2.2.2.2.1 2 ),
    done (((h (clocked { fmcSel := 19 })).2.2.2.2.2.2.2.2.1 1 ?_ ?_).1 ?_ ?_),
    done (((h (clocked { fmcSel := 1280 })).2.2.2.2.2.2.2.2.1 1 ?_ ?_).2 (Or.inr ?_)),
    kept ((h (clocked { fmcStat := 1 })).2.2.2.2.2.2.2.2.2.1 1 (Or.inr ?_)),
    done ((h (clocked { fmcStat := 1 })).2.2.2.2.2.2.2.2.2.2.1 4294967296 ?_),
    done ((h (clocked { fmcStat := 1 })).2.2.2.2.2.2.2.2.2.2.2 ?_)⟩ <;> decide +kernel

def atResetsKeepWhatTheirDepthKeeps1 : State := { (logged0 { st := .complete, commitRec := true }) with
  watch := { modKey := some 5, keys := [5], nonce := 9 }, ddr := [(2, { trained := true })], faults := { persist := [{ cls := 20 }] } }
def atResetsKeepWhatTheirDepthKeeps2 : State := { rdy with bru := { rdy.bru with depth := 4 } }

/-- The hypotheses of ResetsKeepWhatTheirDepthKeeps are met: each clause applies to a state. -/
theorem test_ResetsKeepWhatTheirDepthKeeps_met (h : Claims.ResetsKeepWhatTheirDepthKeeps) :
    Done (.coldReset 4 false) atResetsKeepWhatTheirDepthKeeps1
    ∧ Done (.coldReset 4 true) ({ rdy with bru := { depth := 5 } })
    ∧ Done (.warmReset 4) atResetsKeepWhatTheirDepthKeeps1
    ∧ Done (.warmReset 4) atResetsKeepWhatTheirDepthKeeps2
    ∧ Done (.computeReset 4) atResetsKeepWhatTheirDepthKeeps1
    ∧ Done (.computeReset 4) atResetsKeepWhatTheirDepthKeeps1
    ∧ Done (.computeReset 4) atResetsKeepWhatTheirDepthKeeps2 := by
  refine ⟨done ((h 4 atResetsKeepWhatTheirDepthKeeps1).1 false ?_ ?_ ?_ (Or.inl ?_)),
    kept ((h 4 { rdy with bru := { depth := 5 } }).2.1 true ?_ ?_ ?_ ?_ ?_ ?_),
    done ((h 4 atResetsKeepWhatTheirDepthKeeps1).2.2.1 ?_),
    kept ((h 4 atResetsKeepWhatTheirDepthKeeps2).2.2.2.1 ?_),
    done ((h 4 atResetsKeepWhatTheirDepthKeeps1).2.2.2.2.1 ?_ ?_),
    done ((h 4 atResetsKeepWhatTheirDepthKeeps1).2.2.2.2.2.1 ?_ ?_ (noInputs rfl)),
    kept ((h 4 atResetsKeepWhatTheirDepthKeeps2).2.2.2.2.2.2 ?_)⟩ <;> decide +kernel

def atBringUpPhasesStart1 : State := { waking [1] with watch := { licence := some (licence 5), licKey := key1 } }

/-- The hypotheses of BringUpPhasesStart are met: each clause applies to a state. -/
theorem test_BringUpPhasesStart_met (h : Claims.BringUpPhasesStart) :
    Done .romPhase atBringUpPhasesStart1
    ∧ Done .romPhase (waking [1, 2])
    ∧ Done (.ddrTraining [3]) (waking [1, 2])
    ∧ Done (.ddrTraining [3]) (waking [1])
    ∧ Done .firmwareSelection (waking [1])
    ∧ Done (.domeSelfTest []) (waking [1, 2, 5])
    ∧ Done (.domeSelfTest [0, 1, 2]) (waking [1, 2, 5])
    ∧ Done (.domeSelfTest []) (waking [1, 2]) := by
  refine ⟨done ((h atBringUpPhasesStart1).1 ?_),
    kept ((h (waking [1, 2])).2.1 ?_),
    done ((h (waking [1, 2])).2.2.1 [3] ?_),
    kept ((h (waking [1])).2.2.2.1 [3] ?_),
    kept ((h (waking [1])).2.2.2.2.1 ?_),
    done ((h (waking [1, 2, 5])).2.2.2.2.2.1 ?_ ?_ ?_),
    done ((h (waking [1, 2, 5])).2.2.2.2.2.2.1 [0, 1, 2] ?_ ?_),
    kept ((h (waking [1, 2])).2.2.2.2.2.2.2 [] ?_)⟩ <;> decide +kernel

def atFirmwareSelectionByTable1 : State := { booting {} with clk := { romRcv := true } }
def atFirmwareSelectionByTable2 : State := booting { a := goodSlot .previous, b := badSlot .trial }
def atFirmwareSelectionByTable3 : State := booting { a := goodSlot .previous, b := goodSlot .current }
def atFirmwareSelectionByTable4 : State := booting { a := goodSlot .previous, b := badSlot .current }
def atFirmwareSelectionByTable5 : State := booting { a := goodSlot .previous }

/-- The hypotheses of FirmwareSelectionByTable are met: each clause applies to a state. -/
theorem test_FirmwareSelectionByTable_met (h : Obligations.FirmwareSelectionByTable) :
    Done .firmwareSelection atFirmwareSelectionByTable1
    ∧ Done .firmwareSelection atFirmwareSelectionByTable2
    ∧ Done .firmwareSelection (booting { fbCount := 3 })
    ∧ Done .firmwareSelection atFirmwareSelectionByTable3
    ∧ Done .firmwareSelection atFirmwareSelectionByTable4
    ∧ Done .firmwareSelection atFirmwareSelectionByTable5
    ∧ Done .firmwareSelection (booting {}) := by
  refine ⟨done ((h atFirmwareSelectionByTable1 ?_ ?_).1 ?_),
    done (((h atFirmwareSelectionByTable2 ?_ ?_).2 ?_).1 1 ?_),
    done (((h (booting { fbCount := 3 }) ?_ ?_).2 ?_).2.1 ?_ ?_),
    done ((((h atFirmwareSelectionByTable3 ?_ ?_).2 ?_).2.2.1 1 ?_ ?_ ?_).1 ?_),
    done ((((h atFirmwareSelectionByTable4 ?_ ?_).2 ?_).2.2.1 1 ?_ ?_ ?_).2 ?_),
    done (((h atFirmwareSelectionByTable5 ?_ ?_).2 ?_).2.2.2 ?_ ?_ ?_),
    done (((h (booting {}) ?_ ?_).2 ?_).2.2.2 ?_ ?_ ?_)⟩ <;> decide +kernel

def atBringUpReachesReady1 : State := { (waking [6, 7]).setPart 0 { present := true, pw := { point := 6 } } with watch := {} }
def atBringUpReachesReady2 : State := { waking [1, 2, 4, 6] with ddr := (List.range 8).map (fun c => (c, { oos := true })) }
def atBringUpReachesReady3 : State := { waking [1, 2, 4, 6] with ddr := [(0, { trained := true })] }

/-- The hypotheses of BringUpReachesReady are met: each clause applies to a state. -/
theorem test_BringUpReachesReady_met (h : Claims.BringUpReachesReady) :
    Done (.microcodeBroadcast []) (waking [6])
    ∧ Done (.microcodeBroadcast [3]) (waking [5])
    ∧ Done (.cellCheck [] []) atBringUpReachesReady1
    ∧ Done (.cellCheck [] []) (waking [6])
    ∧ Done (.ddrTest []) (waking [4, 6])
    ∧ Done (.ddrTest []) atBringUpReachesReady2
    ∧ Done (.ddrTest [(0, 3)]) atBringUpReachesReady3
    ∧ Done (.ddrTest []) (waking [4])
    ∧ Done .ready (waking [8, 9])
    ∧ Done .ready (waking [8]) := by
  refine ⟨done ((h (waking [6])).1 ?_),
    kept ((h (waking [5])).2.1 [3] ?_),
    done ((h atBringUpReachesReady1).2.2.1 ?_ ?_),
    kept ((h (waking [6])).2.2.2.1 [] [] ?_),
    done ((h (waking [4, 6])).2.2.2.2.1 ?_),
    done ((h atBringUpReachesReady2).2.2.2.2.1 ?_),
    done ((h atBringUpReachesReady3).2.2.2.2.2.1 3 ?_ ?_ ?_ ?_ ?_),
    kept ((h (waking [4])).2.2.2.2.2.2.1 [] ?_),
    done ((h (waking [8, 9])).2.2.2.2.2.2.2.1 ?_ ?_),
    kept ((h (waking [8])).2.2.2.2.2.2.2.2 ?_)⟩ <;> decide +kernel

def atManagementFramesAreChecked1 : State := served 6 (List.replicate 8 ([], 0))

/-- The hypotheses of ManagementFramesAreChecked are met: each clause applies to a state. -/
theorem test_ManagementFramesAreChecked_met (h : Claims.ManagementFramesAreChecked) :
    Done (.mgmtHello (le 4 0x4554474D ++ [0, 1] ++ zeros 6 ++ le 4 2 ++ zeros 32 ++ [0, 3]) 4) rdy
    ∧ Done (.mgmtHello [1, 2] 4) rdy
    ∧ Done (.mgmtCmdCheck [1, 2] 4) (served 6 [])
    ∧ Done (.mgmtCmdCheck (order 0x12 []) 4) (served 6 [])
    ∧ Done (.mgmtCmdCheck (order 0x12 []) 4) (served 8 [])
    ∧ Done (.mgmtCmdCheck (order 0x12 []) 4) atManagementFramesAreChecked1
    ∧ Done (.mgmtCmdCheck (order 0x12 []) 4) (served 7 []) := by
  refine ⟨done ((h (le 4 0x4554474D ++ [0, 1] ++ zeros 6 ++ le 4 2 ++ zeros 32 ++ [0, 3]) 4 rdy ?_).1 ?_ ?_ ?_ ?_ ?_ ?_),
    kept ((h [1, 2] 4 rdy ?_).2.1 ?_),
    done ((h [1, 2] 4 (served 6 []) ?_).2.2.1 ?_),
    done ((h (order 0x12 []) 4 (served 6 []) ?_).2.2.2.1 ?_ ?_ ?_),
    done ((h (order 0x12 []) 4 (served 8 []) ?_).2.2.2.2.1 ?_ (Or.inl ?_)),
    done ((h (order 0x12 []) 4 atManagementFramesAreChecked1 ?_).2.2.2.2.1 ?_ (Or.inr ?_)),
    done ((h (order 0x12 []) 4 (served 7 []) ?_).2.2.2.2.2 [9] ?_ ?_ ?_ ?_)⟩ <;> decide +kernel

def atManagementRolesAndLengths1 : State := { rdy with board := { p4 := true } }

/-- The hypotheses of ManagementRolesAndLengths are met: each clause applies to a state. -/
theorem test_ManagementRolesAndLengths_met (h : Claims.ManagementRolesAndLengths) :
    Done .reset rdy
    ∧ Done .reset atManagementRolesAndLengths1
    ∧ Done .capSet (ordered 3 0x40 (zeros 4) rdy)
    ∧ Done .capSet (ordered 2 0x40 (zeros 5) rdy) := by
  refine ⟨kept ((h (0x70, .reset, 1, 2) (by decide) rdy).2.1 ?_),
    kept ((h (0x70, .reset, 1, 2) (by decide) atManagementRolesAndLengths1).1 ?_),
    done (((h (0x40, .capSet, 2, 4) (by decide) (ordered 3 0x40 (zeros 4) rdy)).2.2 (order 0x40 (zeros 4), 4) []
      { role := 3, key := key1 } ?_ ?_ ?_ ?_ ?_ ?_).1 ?_),
    done (((h (0x40, .capSet, 2, 4) (by decide) (ordered 2 0x40 (zeros 5) rdy)).2.2 (order 0x40 (zeros 5), 4) []
      { role := 2, key := key1 } ?_ ?_ ?_ ?_ ?_ ?_).2 ?_ ?_)⟩ <;> decide +kernel

def atManagementReads1 : State := ordered 1 0x04 [0, 0, 0, 0, 1] rdy

/-- The hypotheses of ManagementReads are met: each clause applies to a state. -/
theorem test_ManagementReads_met (h : Claims.ManagementReads) :
    Done .status (ordered 1 0x02 [] rdy)
    ∧ Done .attestMod (ordered 1 0x03 (zeros 32) rdy)
    ∧ Done .faultRead atManagementReads1
    ∧ Done .keyList (ordered 1 0x12 [] rdy)
    ∧ Done .streamList (ordered 1 0x62 [0] rdy) := by
  refine ⟨done ((h (order 0x02 [], 4) [] (ordered 1 0x02 [] rdy)).1 (manages (k := { role := 1, key := key1 }) ?_ ?_ ?_ ?_ ?_ ?_)),
    done ((h (order 0x03 (zeros 32), 4) [] (ordered 1 0x03 (zeros 32) rdy)).2.1 (manages (k := { role := 1, key := key1 }) ?_ ?_ ?_ ?_
      ?_ ?_) ?_),
    done ((h (order 0x04 [0, 0, 0, 0, 1], 4) [] atManagementReads1).2.2.1 (manages (k := { role := 1, key := key1 }) ?_ ?_ ?_ ?_ ?_ ?_)
      ?_),
    done ((h (order 0x12 [], 4) [] (ordered 1 0x12 [] rdy)).2.2.2.1 (manages (k := { role := 1, key := key1 }) ?_ ?_ ?_ ?_ ?_ ?_)),
    done ((h (order 0x62 [0], 4) [] (ordered 1 0x62 [0] rdy)).2.2.2.2 (manages (k := { role := 1, key := key1 }) ?_ ?_ ?_ ?_ ?_ ?_) ?_
      ?_)⟩ <;> decide +kernel

def atManagementSettings1 : State := ordered 1 0x10 ([3, 1] ++ zeros 32) rdy
def atManagementSettings2 : State := ordered 1 0x20 ([7, 3] ++ key1) rdy
def atManagementSettings3 : State := ordered 1 0x21 ([16] ++ key1) rdy
def atManagementSettings4 : State := ordered 1 0x30 (licence 5) { rdy with watch := { licKey := key1 } }
def atManagementSettings5 : State :=
  ordered 1 0x30 (licence 5) { rdy with watch := { licKey := key1, licValid := true, licence := some (licence 6) } }
def atManagementSettings6 : State := ordered 1 0x50 ([2] ++ le 2 4095 ++ [1, 2, 3, 4] ++ zeros 16 ++ [128]) rdy

/-- The hypotheses of ManagementSettings are met: each clause applies to a state. -/
theorem test_ManagementSettings_met (h : Claims.ManagementSettings) :
    Done .keyEnroll atManagementSettings1
    ∧ Done .keyRevoke revokes
    ∧ Done .keyRevoke (ordered 1 0x11 [2] rdy)
    ∧ Done .platekeySet atManagementSettings2
    ∧ Done .hostkeyPin atManagementSettings3
    ∧ Done .licenceInstall atManagementSettings4
    ∧ Done .licenceInstall atManagementSettings5
    ∧ Done .capSet (ordered 1 0x40 (le 4 141) rdy)
    ∧ Done .capSet (ordered 1 0x40 (le 4 140) rdy)
    ∧ Done .trimSet (ordered 1 0x41 (le 4 4) rdy)
    ∧ Done .trimSet (ordered 1 0x41 (le 4 3) rdy)
    ∧ Done .portAddr atManagementSettings6
    ∧ Done .eventDest (ordered 1 0x80 (zeros 18) rdy) := by
  refine ⟨done ((h (order 0x10 ([3, 1] ++ zeros 32), 4) [] atManagementSettings1).1 (manages (k := { role := 1, key := key1 }) ?_ ?_ ?_
    ?_ ?_ ?_) ?_ ?_),
    done (((h (order 0x11 [3], 4) [] revokes).2.1 (manages (k := { role := 1, key := key1 }) ?_ ?_ ?_ ?_ ?_ ?_) ?_ ?_).1 (⟨(2, some
      { role := 1, key := key1 }), { role := 1, key := key1 }, by decide +kernel, by decide +kernel, rfl, rfl⟩)),
    done (((h (order 0x11 [2], 4) [] (ordered 1 0x11 [2] rdy)).2.1 (manages (k := { role := 1, key := key1 }) ?_ ?_ ?_ ?_ ?_ ?_) ?_
      ?_).2 (lastAdmin)),
    done ((h (order 0x20 ([7, 3] ++ key1), 4) [] atManagementSettings2).2.2.1 (manages (k := { role := 1, key := key1 }) ?_ ?_ ?_ ?_ ?_
      ?_) ?_ ?_),
    done ((h (order 0x21 ([16] ++ key1), 4) [] atManagementSettings3).2.2.2.1 (manages (k := { role := 1, key := key1 }) ?_ ?_ ?_ ?_ ?_
      ?_) ?_),
    done ((h (order 0x30 (licence 5), 4) [] atManagementSettings4).2.2.2.2.1 (manages (k := { role := 1, key := key1 }) ?_ ?_ ?_ ?_ ?_
      ?_)),
    done ((h (order 0x30 (licence 5), 4) [] atManagementSettings5).2.2.2.2.2.1 (licence 6) (manages (k := { role := 1, key := key1 }) ?_
      ?_ ?_ ?_ ?_ ?_) ?_ ?_ ?_ ?_ ?_),
    done ((h (order 0x40 (le 4 141), 4) [] (ordered 1 0x40 (le 4 141) rdy)).2.2.2.2.2.2.1 (manages (k := { role := 1, key := key1 }) ?_
      ?_ ?_ ?_ ?_ ?_) (Or.inr ?_)),
    done ((h (order 0x40 (le 4 140), 4) [] (ordered 1 0x40 (le 4 140) rdy)).2.2.2.2.2.2.2.1 (manages (k := { role := 1, key := key1 })
      ?_ ?_ ?_ ?_ ?_ ?_) ?_ ?_),
    done (((h (order 0x41 (le 4 4), 4) [] (ordered 1 0x41 (le 4 4) rdy)).2.2.2.2.2.2.2.2.1 (manages (k := { role := 1, key := key1 }) ?_
      ?_ ?_ ?_ ?_ ?_) ).1 ?_),
    done (((h (order 0x41 (le 4 3), 4) [] (ordered 1 0x41 (le 4 3) rdy)).2.2.2.2.2.2.2.2.1 (manages (k := { role := 1, key := key1 }) ?_
      ?_ ?_ ?_ ?_ ?_) ).2 ?_),
    done ((h (order 0x50 ([2] ++ le 2 4095 ++ [1, 2, 3, 4] ++ zeros 16 ++ [128]), 4) [] atManagementSettings6).2.2.2.2.2.2.2.2.2.1
      (manages (k := { role := 1, key := key1 }) ?_ ?_ ?_ ?_ ?_ ?_) ?_ ?_ ?_),
    done ((h (order 0x80 (zeros 18), 4) [] (ordered 1 0x80 (zeros 18) rdy)).2.2.2.2.2.2.2.2.2.2 (manages (k :=
      { role := 1, key := key1 }) ?_ ?_ ?_ ?_ ?_ ?_))⟩ <;> decide +kernel

def atManagementStreamsAndResets1 : State := ordered 1 0x51 ([1, 1, 3] ++ zeros 84) rdy
def atManagementStreamsAndResets2 : State := ordered 1 0x52 [1, 1, 3, 0, 0, 0, 0] rdy
def atManagementStreamsAndResets3 : State :=
  ordered 1 0x52 [1, 1, 3, 0, 0, 0, 0] (rdy.setSport 1 { txSa := [(3, some { sak := key1, pn := 1 })] })
def atManagementStreamsAndResets4 : State := ordered 1 0x60 (zeros 48) boundary0
def atManagementStreamsAndResets5 : State := ordered 1 0x60 ([2, 1] ++ le 2 4000 ++ [0, 2, 0, 0] ++ zeros 40) addressed
def atManagementStreamsAndResets6 : State := ordered 1 0x61 [4] (streamed (entry 2 1 4000 0 2 0) rdy)

/-- The hypotheses of ManagementStreamsAndResets are met: each clause applies to a state. -/
theorem test_ManagementStreamsAndResets_met (h : Claims.ManagementStreamsAndResets) :
    Done .macsecSak atManagementStreamsAndResets1
    ∧ Done .macsecCtl atManagementStreamsAndResets2
    ∧ Done .macsecCtl atManagementStreamsAndResets3
    ∧ Done .streamAdd atManagementStreamsAndResets4
    ∧ Done .streamAdd atManagementStreamsAndResets5
    ∧ Done .streamRemove atManagementStreamsAndResets6
    ∧ Done .reset (ordered 1 0x70 [1, 1] rdy)
    ∧ Done .reset (ordered 1 0x70 [2, 0] rdy)
    ∧ Done .reset (ordered 1 0x70 [3, 0] rdy)
    ∧ Done .reset (ordered 1 0x70 [2, 1] rdy)
    ∧ Done .powerOff (ordered 1 0x71 [] rdy) := by
  refine ⟨sakSet h (c := (order 0x51 ([1, 1, 3] ++ zeros 84), 4)) (rest := []) (manages (k := { role := 1, key := key1 }) ?_ ?_ ?_ ?_ ?_
    ?_) ?_ ?_ ?_,
    done (((h (order 0x52 [1, 1, 3, 0, 0, 0, 0], 4) [] atManagementStreamsAndResets2).2.1 (manages (k := { role := 1, key := key1 }) ?_
      ?_ ?_ ?_ ?_ ?_) ?_ ?_ ?_).1 ?_),
    done (((h (order 0x52 [1, 1, 3, 0, 0, 0, 0], 4) [] atManagementStreamsAndResets3).2.1 (manages (k := { role := 1, key := key1 }) ?_
      ?_ ?_ ?_ ?_ ?_) ?_ ?_ ?_).2 ?_),
    done (((h (order 0x60 (zeros 48), 4) [] atManagementStreamsAndResets4).2.2.1 (manages (k := { role := 1, key := key1 }) ?_ ?_ ?_ ?_
      ?_ ?_) ?_).1 0x31 ?_),
    done (((h (order 0x60 ([2, 1] ++ le 2 4000 ++ [0, 2, 0, 0] ++ zeros 40), 4) [] atManagementStreamsAndResets5).2.2.1 (manages (k :=
      { role := 1, key := key1 }) ?_ ?_ ?_ ?_ ?_ ?_) ?_).2 0 ?_ ?_ ?_ (fun m h => absurd h (by omega))),
    done ((h (order 0x61 [4], 4) [] atManagementStreamsAndResets6).2.2.2.1 (manages (k := { role := 1, key := key1 }) ?_ ?_ ?_ ?_ ?_ ?_)
      ?_ ?_ ?_),
    done ((h (order 0x70 [1, 1], 4) [] (ordered 1 0x70 [1, 1] rdy)).2.2.2.2.1 (manages (k := { role := 1, key := key1 }) ?_ ?_ ?_ ?_ ?_
      ?_) ?_ ?_),
    done ((h (order 0x70 [2, 0], 4) [] (ordered 1 0x70 [2, 0] rdy)).2.2.2.2.2.1 (manages (k := { role := 1, key := key1 }) ?_ ?_ ?_ ?_
      ?_ ?_) ?_ ?_ ?_),
    done ((h (order 0x70 [3, 0], 4) [] (ordered 1 0x70 [3, 0] rdy)).2.2.2.2.2.2.1 (manages (k := { role := 1, key := key1 }) ?_ ?_ ?_ ?_
      ?_ ?_) ?_ ?_ ?_ ?_),
    done ((h (order 0x70 [2, 1], 4) [] (ordered 1 0x70 [2, 1] rdy)).2.2.2.2.2.2.2.1 (manages (k := { role := 1, key := key1 }) ?_ ?_ ?_
      ?_ ?_ ?_) (Or.inr (Or.inr ?_))),
    done ((h (order 0x71 [], 4) [] (ordered 1 0x71 [] rdy)).2.2.2.2.2.2.2.2 (manages (k := { role := 1, key := key1 }) ?_ ?_ ?_ ?_ ?_
      ?_))⟩ <;> decide +kernel

def atFaultWindowsRemovalAndSupplies1 : State := { rdy with faults := { windows := [(3, some { opened := 900001, extra := 2 })] } }
def atFaultWindowsRemovalAndSupplies2 : State := { rdy with faults := { windows := [(3, some { opened := 900000 })] } }
def atFaultWindowsRemovalAndSupplies3 : State := { rdy with faults := { windows := [(3, some { opened := 900000, extra := 2 })] } }
def atFaultWindowsRemovalAndSupplies4 : State := { rdy with board := { removed := true, lossAt := some 999000 } }
def atFaultWindowsRemovalAndSupplies5 : State := { rdy with board := { removed := true, lossAt := some 999001 } }
def atFaultWindowsRemovalAndSupplies6 : State := { rdy with board := { st := .off, cause := 2 } }
def atFaultWindowsRemovalAndSupplies7 : State := { rdy with board := { st := .off, resetLow := true } }
def atFaultWindowsRemovalAndSupplies8 : State := { rdy with board := { st := .off, p4 := true } }

/-- The hypotheses of FaultWindowsRemovalAndSupplies are met: each clause applies to a state. -/
theorem test_FaultWindowsRemovalAndSupplies_met (h : Obligations.FaultWindowsRemovalAndSupplies) :
    Done (.faultWindowEnd 3) atFaultWindowsRemovalAndSupplies1
    ∧ Done (.faultWindowEnd 3) atFaultWindowsRemovalAndSupplies2
    ∧ Done (.faultWindowEnd 3) atFaultWindowsRemovalAndSupplies3
    ∧ Done .presenceOpen (rdy.setLink 3 { up := true })
    ∧ Done .presenceOpen atFaultWindowsRemovalAndSupplies4
    ∧ Done .lossLineRepeat atFaultWindowsRemovalAndSupplies5
    ∧ Done .lossLineRepeat atFaultWindowsRemovalAndSupplies4
    ∧ Done .powerGood atFaultWindowsRemovalAndSupplies6
    ∧ Done .powerGood atFaultWindowsRemovalAndSupplies7
    ∧ Done (.modResetN false 10000) rdy
    ∧ Done (.modResetN true 10000) rdy
    ∧ Done (.wakeN 10000) atFaultWindowsRemovalAndSupplies8
    ∧ Done (.wakeN 9999) atFaultWindowsRemovalAndSupplies8
    ∧ Done (.inputFault 35999 101) boundary0
    ∧ Done (.inputFault 62001 101) boundary0
    ∧ Done (.inputFault 38000 500000) boundary0 := by
  refine ⟨kept (((h atFaultWindowsRemovalAndSupplies1).1 3 { opened := 900001, extra := 2 } ?_).1 ?_),
    done (((h atFaultWindowsRemovalAndSupplies2).1 3 { opened := 900000 } ?_).2.1 ?_ ?_),
    done (((h atFaultWindowsRemovalAndSupplies3).1 3 { opened := 900000, extra := 2 } ?_).2.2 ?_ ?_),
    done ((h (rdy.setLink 3 { up := true })).2.1 ?_ ?_ ?_),
    kept ((h atFaultWindowsRemovalAndSupplies4).2.2.1 ?_),
    kept (((h atFaultWindowsRemovalAndSupplies5).2.2.2.1 999001 ?_ ?_ ?_).1 ?_),
    done (((h atFaultWindowsRemovalAndSupplies4).2.2.2.1 999000 ?_ ?_ ?_).2 ?_),
    done (((h atFaultWindowsRemovalAndSupplies6).2.2.2.2.1 ?_ ?_).1 ?_),
    done (((h atFaultWindowsRemovalAndSupplies7).2.2.2.2.1 ?_ ?_).2 ?_),
    done (((h rdy).2.2.2.2.2.1 10000 ?_ ?_ ?_ ?_).1 ),
    done (((h rdy).2.2.2.2.2.1 10000 ?_ ?_ ?_ ?_).2 ),
    done ((h atFaultWindowsRemovalAndSupplies8).2.2.2.2.2.2.1 10000 ?_ ?_),
    kept ((h atFaultWindowsRemovalAndSupplies8).2.2.2.2.2.2.2.1 9999 (Or.inr ?_)),
    done ((h boundary0).2.2.2.2.2.2.2.2.1 35999 101 (Or.inl ?_)),
    done ((h boundary0).2.2.2.2.2.2.2.2.1 62001 101 (Or.inr (Or.inr ?_))),
    kept ((h boundary0).2.2.2.2.2.2.2.2.2 38000 500000 ?_ ?_)⟩ <;> decide +kernel

end Sys2Proof.Tests
end

/-!
What several proofs below use of the state's parts and of bit fields: an entry that a write does not name stays, and a
bit reads as written.
-/
namespace Sys2Proof.Machine

/-- W1C, bit by bit (R9). -/
theorem bit_w1c {w : Nat} (v written : BitVec w) {i : Nat} (h : i < w) :
    bit (w1c v written) i = (bit v i && !bit written i) := by
  simp [bit, w1c, h]

theorem bit_setBit_same {w : Nat} (v : BitVec w) {i : Nat} (h : i < w) : bit (setBit v i) i = true := by
  rw [bit, setBit, BitVec.getLsbD_or, BitVec.getLsbD_ofNat, Nat.testBit_two_pow_self]
  simp [h]

theorem fld_lt {w : Nat} (v : BitVec w) (lo len : Nat) : fld v lo len < 2 ^ len := Nat.mod_lt _ (Nat.two_pow_pos len)

/-- A read after writes of one value at the keys of a list. -/
theorem Sp.get_foldl_set {α : Type} [DecidableEq α] (d e : α) (key : Nat → Nat) (k : Nat) (ns : List Nat) (l : Sparse α) :
    Sp.get d (ns.foldl (fun b n => Sp.set d b (key n) e) l) k = if ∃ n ∈ ns, key n = k then e else Sp.get d l k := by
  induction ns generalizing l with
  | nil => simp
  | cons n t ih =>
    rw [List.foldl_cons, ih, Sp.get_set]
    by_cases hn : key n = k <;> simp [hn]

section
variable (s : State)

theorem setCell_cell_ne {n m : Nat} (x : CellState) (h : m ≠ n) : (s.setCell n x).cell m = s.cell m :=
  (setCell_cell ..).trans (if_neg (Ne.symm h))

theorem setPan_pan_ne {n m : Nat} (x : PanState) (h : m ≠ n) : (s.setPan n x).pan m = s.pan m :=
  (setPan_pan ..).trans (if_neg (Ne.symm h))

theorem setPart_part_ne {p q : Nat} (x : Part) (h : q ≠ p) : (s.setPart p x).part q = s.part q :=
  (setPart_part ..).trans (if_neg (Ne.symm h))

/-- Replacing one partition's entry touches that partition alone. -/
theorem onlyPart_setPart (p : Nat) (x : Part) : Claims.OnlyPart s (s.setPart p x) p :=
  ⟨by cases s; rfl, fun _ hq => setPart_part_ne s x hq⟩

end

end Sys2Proof.Machine

/-! O1: the step. -/
namespace Sys2Proof.Proofs
open Machine

/-- Settles O1, by the branch of the step for a queue that is not empty. -/
theorem stepRunsFrontCommand : Obligations.StepRunsFrontCommand := by
  intro c rest s h
  rw [step, h]

end Sys2Proof.Proofs

/-!
O5: every command completes but a reset pulse of undefined length. Each branch of each command's meaning ends in a next state;
MOD_RESET_N alone has a branch that faults, and its guard is that of an undefined pulse (R482).
-/
namespace Sys2Proof.Machine

/-- The outcome is a next state. -/
def Completes (o : Out) : Prop := ∃ t, o = .next t

theorem undefinedPulse_modResetN (released : Bool) (ns : Nat) :
    undefinedPulse (.modResetN released ns) = true ↔ released = true ∧ 1000 ≤ ns ∧ ns < 10000 := by
  simp [undefinedPulse, and_assoc]

theorem exec_of_undefinedPulse {c : Instr} (s : State) (h : undefinedPulse c = true) :
    exec c s = .fault .undefinedResetPulse := by
  cases c with
  | modResetN released ns =>
    obtain ⟨hreleased, hlo, hhi⟩ := (undefinedPulse_modResetN released ns).1 h
    exact (if_neg (Nat.not_lt.2 hlo)).trans ((if_pos hhi).trans (if_pos hreleased))
  | _ => cases h

theorem execModResetN_completes {released : Bool} {ns : Nat} (s : State)
    (h : undefinedPulse (.modResetN released ns) = false) : Completes (execModResetN released ns s) := by
  rw [← Bool.not_eq_true, undefinedPulse_modResetN] at h
  fun_cases execModResetN
  case case2 hlo hhi hreleased => exact absurd ⟨hreleased, Nat.le_of_not_lt hlo, hhi⟩ h
  all_goals exact ⟨_, rfl⟩

/-- Every VEC of a class whose result is a list of lanes. -/
theorem Vec.run_completes (n cls : Nat) (f : Desc → List Nat → List Nat → List Nat → List Nat × Flags) (s : State) :
    Completes (Vec.run n cls f s) := by
  fun_cases Vec.run <;> exact ⟨_, rfl⟩

/-- A command that is no undefined pulse completes. Listed are the commands whose meaning branches, each split along its
branches; the meaning of every other command is one next state. -/
theorem exec_completes (c : Instr) (s : State) (h : undefinedPulse c = false) : Completes (exec c s) := by
  cases c with dsimp only [exec]
  -- registers
  | registerWrite r width v => fun_cases execRegisterWrite <;> exact ⟨_, rfl⟩
  -- page table
  | pageTableOpEnd w => fun_cases execPageTableOpEnd <;> exact ⟨_, rfl⟩
  -- sequencer control and bindings
  | commit p => fun_cases execCommit <;> exact ⟨_, rfl⟩
  | seqStepWrite p hi v => fun_cases execSeqStepWrite <;> exact ⟨_, rfl⟩
  | bindWrite p v => fun_cases execBindWrite <;> exact ⟨_, rfl⟩
  | ptmDlWrite p hi v => fun_cases execPtmDlWrite <;> exact ⟨_, rfl⟩
  -- issue
  | bundleIssue => fun_cases execBundleIssue <;> exact ⟨_, rfl⟩
  | plateFetch p => fun_cases execPlateFetch <;> exact ⟨_, rfl⟩
  | segmentAccept n => fun_cases execSegmentAccept <;> exact ⟨_, rfl⟩
  | operationStart n u => fun_cases execOperationStart <;> exact ⟨_, rfl⟩
  -- descriptors
  | matmul n e => fun_cases execMatmul <;> exact ⟨_, rfl⟩
  | drain n e => fun_cases execDrain <;> exact ⟨_, rfl⟩
  | vecSimpleFp32 => exact Vec.run_completes ..
  | vecInteger => exact Vec.run_completes ..
  | vecConversion => exact Vec.run_completes ..
  | vecDivideRoot => exact Vec.run_completes ..
  | vecElementary => exact Vec.run_completes ..
  | vecReduction => exact Vec.run_completes ..
  | vecMovement => exact Vec.run_completes ..
  | vecMemory n => fun_cases execVecMemory <;> exact ⟨_, rfl⟩
  | panrd n pan => fun_cases execPanrd <;> exact ⟨_, rfl⟩
  | panwr n pan => fun_cases execPanwr <;> exact ⟨_, rfl⟩
  | gather n lane => fun_cases execGather <;> exact ⟨_, rfl⟩
  | move n => fun_cases execMove <;> exact ⟨_, rfl⟩
  | cold n => fun_cases execCold <;> exact ⟨_, rfl⟩
  | barrier p => fun_cases execBarrier <;> exact ⟨_, rfl⟩
  | phase p => fun_cases execPhase <;> exact ⟨_, rfl⟩
  | endPlate p => fun_cases execEndPlate <;> exact ⟨_, rfl⟩
  | strin n => fun_cases execStrin <;> exact ⟨_, rfl⟩
  | strout n => fun_cases execStrout <;> exact ⟨_, rfl⟩
  -- completion, barriers, limiter, watchdog
  | operationComplete n op => fun_cases execOperationComplete <;> exact ⟨_, rfl⟩
  | moveAcknowledge n op => fun_cases execMoveAcknowledge <;> exact ⟨_, rfl⟩
  | barrierComplete p => fun_cases execBarrierComplete <;> exact ⟨_, rfl⟩
  | staggerRelease p => fun_cases execStaggerRelease <;> exact ⟨_, rfl⟩
  | limiterGrant b => fun_cases execLimiterGrant <;> exact ⟨_, rfl⟩
  | stepCompletion p => fun_cases execStepCompletion <;> exact ⟨_, rfl⟩
  | stall p => fun_cases execStall <;> exact ⟨_, rfl⟩
  | deadlineMiss p => fun_cases execDeadlineMiss <;> exact ⟨_, rfl⟩
  -- scrubbing, repair, oscillators, mesh
  | panPatrolRead pan found => fun_cases execPanPatrolRead <;> exact ⟨_, rfl⟩
  | rowCopyComplete pan layer row => fun_cases execRowCopyComplete <;> exact ⟨_, rfl⟩
  | ageingCheck n below => fun_cases execAgeingCheck <;> exact ⟨_, rfl⟩
  | oscillatorTrim n beats => fun_cases execOscillatorTrim <;> exact ⟨_, rfl⟩
  | meshFlitResend n dir => fun_cases execMeshFlitResend <;> exact ⟨_, rfl⟩
  -- Dome firmware procedures
  | boundaryProcedure p => fun_cases execBoundaryProcedure <;> exact ⟨_, rfl⟩
  | commitRecordWrite p => fun_cases execCommitRecordWrite <;> exact ⟨_, rfl⟩
  | standbyRelease p => fun_cases execStandbyRelease <;> exact ⟨_, rfl⟩
  | replay p => fun_cases execReplay <;> exact ⟨_, rfl⟩
  | rebuild p => fun_cases execRebuild <;> exact ⟨_, rfl⟩
  | scrubComplete what => fun_cases execScrubComplete <;> exact ⟨_, rfl⟩
  -- host port
  | apertureWrite port f off data => fun_cases execApertureWrite <;> exact ⟨_, rfl⟩
  | hpApReset port f => fun_cases execHpApReset <;> exact ⟨_, rfl⟩
  | ringEnWrite port f v => fun_cases execRingEnWrite <;> exact ⟨_, rfl⟩
  | hpRingHeadWrite port f v => fun_cases execHpRingHeadWrite <;> exact ⟨_, rfl⟩
  | inboundFrame port f => fun_cases execInboundFrame <;> exact ⟨_, rfl⟩
  | egressWrite port f => fun_cases execEgressWrite <;> exact ⟨_, rfl⟩
  | irqDelayExpiry port f => fun_cases execIrqDelayExpiry <;> exact ⟨_, rfl⟩
  | flr port f => fun_cases execFlr <;> exact ⟨_, rfl⟩
  | configRequest port req => fun_cases execConfigRequest <;> exact ⟨_, rfl⟩
  -- firmware update
  | firmwareConfirm => fun_cases execFirmwareConfirm <;> exact ⟨_, rfl⟩
  | confirmationWindowExpiry => fun_cases execConfirmationWindowExpiry <;> exact ⟨_, rfl⟩
  -- pair
  | snapshotTransmit p => fun_cases execSnapshotTransmit <;> exact ⟨_, rfl⟩
  | mirrorDecision port f => fun_cases execMirrorDecision <;> exact ⟨_, rfl⟩
  | heartbeat => fun_cases execHeartbeat <;> exact ⟨_, rfl⟩
  | leaseExpiry => fun_cases execLeaseExpiry <;> exact ⟨_, rfl⟩
  | arbiterLink => fun_cases execArbiterLink <;> exact ⟨_, rfl⟩
  -- stream ports and links
  | addressResolution port dst rest => fun_cases execAddressResolution <;> exact ⟨_, rfl⟩
  | streamFrameDiscard port frame => fun_cases execStreamFrameDiscard <;> exact ⟨_, rfl⟩
  | streamDeadlineExpiry entry k => fun_cases execStreamDeadlineExpiry <;> exact ⟨_, rfl⟩
  | lldpTransmit port => fun_cases execLldpTransmit <;> exact ⟨_, rfl⟩
  | lldpReceive port ttl far => fun_cases execLldpReceive <;> exact ⟨_, rfl⟩
  | lldpExpiry port => fun_cases execLldpExpiry <;> exact ⟨_, rfl⟩
  | remapWord port partner => fun_cases execRemapWord <;> exact ⟨_, rfl⟩
  | laneLockLoss port lane => fun_cases execLaneLockLoss <;> exact ⟨_, rfl⟩
  | linkDown port => fun_cases execLinkDown <;> exact ⟨_, rfl⟩
  -- video
  | pictureDecode k => fun_cases execPictureDecode <;> exact ⟨_, rfl⟩
  | shapePicture k j => fun_cases execShapePicture <;> exact ⟨_, rfl⟩
  | pictureReady k j => fun_cases execPictureReady <;> exact ⟨_, rfl⟩
  | encodePicture k j => fun_cases execEncodePicture <;> exact ⟨_, rfl⟩
  | sliceCoded k j => fun_cases execSliceCoded <;> exact ⟨_, rfl⟩
  -- DDR4
  | spareCopyComplete c => fun_cases execSpareCopyComplete <;> exact ⟨_, rfl⟩
  | ddrPatrolRead c page cw devs => fun_cases execDdrPatrolRead <;> exact ⟨_, rfl⟩
  | selfRefreshChange c => fun_cases execSelfRefreshChange <;> exact ⟨_, rfl⟩
  -- Dome apertures, cores and DIC
  | panApertureAccess core addr store => fun_cases execPanApertureAccess <;> exact ⟨_, rfl⟩
  | coldApertureAccess core addr store => fun_cases execColdApertureAccess <;> exact ⟨_, rfl⟩
  | domeStart v => fun_cases execDomeStart <;> exact ⟨_, rfl⟩
  | dicClaim core => fun_cases execDicClaim <;> exact ⟨_, rfl⟩
  | dicComplete core v => fun_cases execDicComplete <;> exact ⟨_, rfl⟩
  | dicSoftWrite core v => fun_cases execDicSoftWrite <;> exact ⟨_, rfl⟩
  -- power
  | clampHoldEnd => fun_cases execClampHoldEnd <;> exact ⟨_, rfl⟩
  | clampClimb => fun_cases execClampClimb <;> exact ⟨_, rfl⟩
  | pwrPolWrite p v => fun_cases execPwrPolWrite <;> exact ⟨_, rfl⟩
  | idleHoldExpiry p => fun_cases execIdleHoldExpiry <;> exact ⟨_, rfl⟩
  | p3ExitDone p => fun_cases execP3ExitDone <;> exact ⟨_, rfl⟩
  | powerInterval est queues => fun_cases execPowerInterval <;> exact ⟨_, rfl⟩
  | gainUpdate measured estimated => fun_cases execGainUpdate <;> exact ⟨_, rfl⟩
  | powerSample volts amps => fun_cases execPowerSample <;> exact ⟨_, rfl⟩
  | policyConflict p => fun_cases execPolicyConflict <;> exact ⟨_, rfl⟩
  | droopDetect b => fun_cases execDroopDetect <;> exact ⟨_, rfl⟩
  | stretchEnd b => fun_cases execStretchEnd <;> exact ⟨_, rfl⟩
  | droopLong b still => fun_cases execDroopLong <;> exact ⟨_, rfl⟩
  | thermalLimitStep b temp => fun_cases execThermalLimitStep <;> exact ⟨_, rfl⟩
  | thermal b temp => fun_cases execThermal <;> exact ⟨_, rfl⟩
  | thermalTrip b temp => fun_cases execThermalTrip <;> exact ⟨_, rfl⟩
  -- clocks
  | oscWaitEnd refOk => fun_cases execOscWaitEnd <;> exact ⟨_, rfl⟩
  | refclkLost => fun_cases execRefclkLost <;> exact ⟨_, rfl⟩
  | measurementDone r => fun_cases execMeasurementDone <;> exact ⟨_, rfl⟩
  -- resets
  | coldReset source full => fun_cases execColdReset <;> exact ⟨_, rfl⟩
  -- bring-up
  | romPhase => fun_cases execRomPhase <;> exact ⟨_, rfl⟩
  | ddrTraining failed => fun_cases execDdrTraining <;> exact ⟨_, rfl⟩
  | firmwareSelection => fun_cases execFirmwareSelection <;> exact ⟨_, rfl⟩
  | domeSelfTest failed => fun_cases execDomeSelfTest <;> exact ⟨_, rfl⟩
  | microcodeBroadcast failed => fun_cases execMicrocodeBroadcast <;> exact ⟨_, rfl⟩
  | cellCheck failed rows => fun_cases execCellCheck <;> exact ⟨_, rfl⟩
  | ddrTest failed => fun_cases execDdrTest <;> exact ⟨_, rfl⟩
  | ready => fun_cases execReady <;> exact ⟨_, rfl⟩
  -- management
  | mgmtHello frame replyTo => fun_cases execMgmtHello <;> exact ⟨_, rfl⟩
  | mgmtCmdCheck frame replyTo => fun_cases execMgmtCmdCheck <;> exact ⟨_, rfl⟩
  -- faults and board
  | faultWindowEnd key => fun_cases execFaultWindowEnd <;> exact ⟨_, rfl⟩
  | presenceOpen => fun_cases execPresenceOpen <;> exact ⟨_, rfl⟩
  | lossLineRepeat => fun_cases execLossLineRepeat <;> exact ⟨_, rfl⟩
  | modResetN => exact execModResetN_completes s h
  | linkTrained port width => fun_cases execLinkTrained <;> exact ⟨_, rfl⟩
  | bufferSetRelease k j set => fun_cases execBufferSetRelease <;> exact ⟨_, rfl⟩
  | _ => exact ⟨_, rfl⟩

end Sys2Proof.Machine

namespace Sys2Proof.Proofs
open Machine

/-- Settles O5, by the two values of `undefinedPulse`. -/
theorem onlyUndefinedPulseStops : Obligations.OnlyUndefinedPulseStops := by
  intro c s
  cases h : undefinedPulse c with
  | false => exact .inl (exec_completes c s h)
  | true => exact .inr ⟨rfl, exec_of_undefinedPulse s h⟩

end Sys2Proof.Proofs

/-! O6, reads: what a read of a register of a window returns, latches and clears (R4, R5, R11). -/
namespace Sys2Proof.Machine

section
variable (s : State)

section
variable {core addr off : Nat} {w : Win}

theorem readReg_of_region (hc : core ≤ 7) (ha : addr % 4 = 0) (hr : region addr = .reg w off) :
    s.readReg (.dome core addr) = s.readWin w addr off := by
  have haligned : addr / 4 * 4 = addr := by omega
  simp [State.readReg, State.readDome, haligned, hr, Nat.not_lt.2 hc]

theorem readWin_of_regPair {v : Nat} (h : s.regPair w off = some v) : s.readWin w addr off = s.readLow addr v := by
  simp [State.readWin, h]

/-- The word above the low half of a 64-bit quantity is its high half (R5). -/
theorem readWin_above_regPair {v : Nat} (hnone : s.regPair w (off + 4) = none) (h : s.regPair w off = some v) :
    s.readWin w (addr + 4) (off + 4) = s.readHigh addr v := by
  simp [State.readWin, hnone, h]

/-- A register that is no half of a 64-bit quantity: its value is read, and then it clears what its access code says (R11). -/
theorem readWin_of_value (hpair : s.regPair w off = none) (hbelow : 4 ≤ off → s.regPair w (off - 4) = none)
    (hdic : w ≠ .dic) :
    s.readWin w addr off = { s.regClear w off with rdata := s.regValue w off % 2 ^ 32 } := by
  have hb : (if 4 ≤ off then s.regPair w (off - 4) else none) = none := by
    split
    · next h => exact hbelow h
    · rfl
  simp [State.readWin, hpair, hb, hdic]

theorem readLow_frame (key v : Nat) : { s.readLow key v with rdata := s.rdata, latch := s.latch } = s := by cases s; rfl

theorem readLow_latch_same (key v : Nat) : Sp.get none (s.readLow key v).latch key = some (hi32 v) := by
  simp [State.readLow]

theorem readHigh_of_latch {key : Nat} {l : Word} (v : Nat) (h : Sp.get none s.latch key = some l) :
    s.readHigh key v = { s with latch := Sp.set none s.latch key none, rdata := l.toNat } := by
  simp [State.readHigh, h]

theorem latch_rdata_frame (l : Sparse (Option Word)) (r : Nat) :
    { { s with latch := l, rdata := r } with rdata := s.rdata, latch := s.latch } = s := by
  cases s; rfl

end

theorem setPan_rdata_frame (n r : Nat) (x : PanState) :
    { { s.setPan n x with rdata := r } with rdata := s.rdata, pans := s.pans } = s := by
  cases s; rfl

/-- RC_READ of a register of a Pan, none of which is half of a 64-bit quantity (R141). -/
theorem exec_rcRead_pan {core addr off n : Nat} (hc : core ≤ 7) (ha : addr % 4 = 0) (hr : region addr = .reg (.pan n) off) :
    exec (.rcRead (.dome core addr)) s
      = .next { s.regClear (.pan n) off with rdata := s.panReg n off % 2 ^ 32 } :=
  congrArg Host.Outcome.next
    ((readReg_of_region s hc ha hr).trans (readWin_of_value s rfl (fun _ => rfl) nofun))

end

end Sys2Proof.Machine

namespace Sys2Proof.Proofs
open Machine

theorem lowHalfReadLatchesHighHalf : Claims.LowHalfReadLatchesHighHalf := by
  intro core addr v w off s hc ha hr hv
  have hlow : s.readReg (.dome core addr) = s.readLow addr v :=
    (readReg_of_region s hc ha hr).trans (readWin_of_regPair s hv)
  refine ⟨_, congrArg Host.Outcome.next hlow, BitVec.toNat_ofNat v 32, readLow_frame .., fun u x hlatch hr' hnone hx => ?_⟩
  have hlatched : Sp.get none u.latch addr = some (hi32 v) := by rw [hlatch, readLow_latch_same]
  have hhigh : u.readReg (.dome core (addr + 4))
      = { u with latch := Sp.set none u.latch addr none, rdata := (hi32 v).toNat } := by
    rw [readReg_of_region u hc (by omega) hr', readWin_above_regPair u hnone hx, readHigh_of_latch u x hlatched]
  exact ⟨_, congrArg Host.Outcome.next hhigh, BitVec.toNat_ofNat (v / 2 ^ 32) 32, latch_rdata_frame ..⟩

theorem counterReadClears : Claims.CounterReadClears := by
  intro core addr n s hc ha
  constructor <;> intro hr <;>
    exact ⟨_, exec_rcRead_pan s hc ha hr, rfl, setPan_pan_same .., fun _ hm => setPan_pan_ne s _ hm,
      setPan_rdata_frame s n _ _⟩

end Sys2Proof.Proofs

/-! O6, writes: what a write to a register of a window does by its access code (R6, R8, R9). -/
namespace Sys2Proof.Machine

section
variable (s : State)

theorem setCell_frame (n : Nat) (x : CellState) : { s.setCell n x with cells := s.cells } = s := by cases s; rfl

section
variable {core addr off : Nat} {w : Win} (v : Word)

/-- A write narrower than 32 bits to register space is discarded (R6). -/
theorem writeDome_narrow {width : Nat} (hr : region addr = .reg w off) (h : width < 32) :
    s.writeDome core addr width v = s := by
  simp [State.writeDome, hr, h]

/-- A register that is no half of a 64-bit quantity is written by its access code alone (R8). -/
theorem writeWin_of_value (hpair : s.regPair w off = none) (hbelow : 4 ≤ off → s.regPair w (off - 4) = none) :
    s.writeWin core w addr off v = s.writeValue core w off v := by
  have hb : (decide (4 ≤ off) && (s.regPair w (off - 4)).isSome) = false := by
    by_cases h : 4 ≤ off <;> simp [h, hbelow]
  simp [State.writeWin, hpair, hb]

theorem writeDome_of_value (hr : region addr = .reg w off) (ho : off % 4 = 0) (hpair : s.regPair w off = none)
    (hbelow : 4 ≤ off → s.regPair w (off - 4) = none) :
    s.writeDome core addr 32 v = s.writeValue core w off v := by
  have haligned : off / 4 * 4 = off := by omega
  simp [State.writeDome, hr, haligned, writeWin_of_value s v hpair hbelow]

theorem execRegisterWrite_dome (width : Nat) (hc : core ≤ 7) :
    execRegisterWrite (.dome core addr) width v s = .next (s.writeDome core addr width v) := by
  simp [execRegisterWrite, Nat.not_lt.2 hc]

theorem execRegisterWrite_bar0_narrow {port func width : Nat} (h : width < 32) :
    execRegisterWrite (.bar0 port func off) width v s = .next s := by
  simp [execRegisterWrite, h]

end

end

end Sys2Proof.Machine

namespace Sys2Proof.Proofs
open Machine

theorem registerWriteByAccessCode : Claims.RegisterWriteByAccessCode := by
  intro core addr n v s hc _
  have hwrite (width : Nat) {t : State} (h : s.writeDome core addr width v = t) :
      exec (.registerWrite (.dome core addr) width v) s = .next t :=
    h ▸ execRegisterWrite_dome s v width hc
  refine ⟨fun hr => ?_, fun hr => ?_, fun w off width hr hw => ?_, fun port func off width hw => ?_⟩
  · refine ⟨_, hwrite 32 (writeDome_of_value s v hr rfl rfl fun _ => rfl), fun i hi => ?_, ?_,
      fun _ hm => setCell_cell_ne s _ hm, setCell_frame ..⟩
    · exact (congrArg (fun c : CellState => bit c.stat i) (setCell_cell_same s n _)).trans (bit_w1c _ _ hi)
    · exact congrArg (fun c : CellState => { c with stat := (s.cell n).stat }) (setCell_cell_same s n _)
  · exact hwrite 32 (writeDome_of_value s v hr rfl rfl nofun)
  · exact hwrite width (writeDome_narrow s v hr hw)
  · exact execRegisterWrite_bar0_narrow s v hw

/-- Settles O6, from its three claims: the latched high half, the counters of a Pan, and the access codes of a write. -/
theorem registersReadAndWrite : Obligations.RegistersReadAndWrite :=
  ⟨lowHalfReadLatchesHighHalf, counterReadClears, registerWriteByAccessCode⟩

end Sys2Proof.Proofs

/-! O11, the pairs: SEQ_STEP and PTM_DL, whose low half is buffered until the high half commits both (R5, R126, R201). -/
namespace Sys2Proof.Machine

section
variable (s : State)

theorem bufLow_frame (key : Nat) (v : Word) : { s.bufLow key v with lowBuf := s.lowBuf } = s := by cases s; rfl

theorem bufLow_lowBuf_same (key : Nat) (v : Word) : Sp.get none (s.bufLow key v).lowBuf key = some v := by
  simp [State.bufLow]

/-- A partition's entry and the buffered halves are all that the commit of a pair touches. -/
theorem setPart_lowBuf_frame (l : Sparse (Option Word)) (p : Nat) (x : Part) :
    { { s with lowBuf := l }.setPart p x with parts := s.parts, lowBuf := s.lowBuf } = s := by
  cases s; rfl

/-- The high half commits with the low half that is buffered (R5). -/
theorem commitHigh_of_lowBuf {key : Nat} {lo : Word} (cur : Nat) (hi : Word) (h : Sp.get none s.lowBuf key = some lo) :
    s.commitHigh key cur hi
      = (lo.toNat + 2 ^ 32 * hi.toNat, { s with lowBuf := Sp.set none s.lowBuf key none }) := by
  simp [State.commitHigh, h]

section
variable {p : Nat} (v : Word)

theorem execSeqStepWrite_low (h : (s.part p).st = .boundary) :
    execSeqStepWrite p false v s = .next (s.bufLow (seqBase p + 0x10) v) := by
  simp [execSeqStepWrite, h]

theorem execSeqStepWrite_high {lo : Word} (h : (s.part p).st = .boundary)
    (hlo : Sp.get none s.lowBuf (seqBase p + 0x10) = some lo) :
    execSeqStepWrite p true v s =
      .next ({ s with lowBuf := Sp.set none s.lowBuf (seqBase p + 0x10) none }.setPart p
        { s.part p with step := lo.toNat + 2 ^ 32 * v.toNat }) := by
  simp only [execSeqStepWrite, commitHigh_of_lowBuf s _ v hlo]
  exact if_neg (by simp [h])

theorem execSeqStepWrite_discarded (hi : Bool) (h : (s.part p).st ≠ .boundary) :
    execSeqStepWrite p hi v s = .next (s.setPart p { s.part p with ctlIgn := true }) := by
  simp [execSeqStepWrite, State.ctlIgn, h]

theorem execPtmDlWrite_low (h : (s.part p).st ≠ .released) :
    execPtmDlWrite p false v s = .next (s.bufLow (ptmBase p + 8) v) := by
  simp [execPtmDlWrite, h]

theorem execPtmDlWrite_high {lo : Word} (h : (s.part p).st ≠ .released)
    (hlo : Sp.get none s.lowBuf (ptmBase p + 8) = some lo) :
    execPtmDlWrite p true v s =
      .next ({ s with lowBuf := Sp.set none s.lowBuf (ptmBase p + 8) none }.setPart p
        { s.part p with dl := lo.toNat + 2 ^ 32 * v.toNat }) := by
  simp only [execPtmDlWrite, commitHigh_of_lowBuf s _ v hlo]
  exact if_neg (by simp [h])

theorem execPtmDlWrite_discarded (hi : Bool) (h : (s.part p).st = .released) :
    execPtmDlWrite p hi v s = .next (s.setPart p { s.part p with ptmStat := setBit (s.part p).ptmStat 4 }) := by
  simp [execPtmDlWrite, State.ptmFlag, h]

end

end

end Sys2Proof.Machine

namespace Sys2Proof.Proofs
open Machine

theorem stepCountAndDeadlineWrites : Claims.StepCountAndDeadlineWrites := by
  intro p v w s
  refine ⟨fun h => ?_, fun hi h => ?_, fun h => ?_, fun hi h => ?_⟩
  · exact ⟨_, execSeqStepWrite_low s v h, bufLow_frame .., _,
      execSeqStepWrite_high _ w h (bufLow_lowBuf_same ..), setPart_part_same ..,
      fun _ hq => setPart_part_ne _ _ hq, setPart_lowBuf_frame s _ p _⟩
  · exact ⟨_, execSeqStepWrite_discarded s v hi h, setPart_part_same .., onlyPart_setPart s p _⟩
  · exact ⟨_, execPtmDlWrite_low s v h, bufLow_frame .., _,
      execPtmDlWrite_high _ w h (bufLow_lowBuf_same ..), setPart_part_same ..,
      fun _ hq => setPart_part_ne _ _ hq, setPart_lowBuf_frame s _ p _⟩
  · refine ⟨_, execPtmDlWrite_discarded s v hi h, ?_, ?_, onlyPart_setPart s p _⟩ <;> rw [setPart_part_same]
    exact bit_setBit_same _ (by decide)

end Sys2Proof.Proofs

/-! O11, the bind write: one entry into a slot of a set of every cell of a rectangle (R197, R201, R202). -/
namespace Sys2Proof.Machine

section
variable (s : State)

/-- The partition's cells in the rectangle that SEQ_BW_CELLS names (R201). -/
def Part.bwRect (x : Part) : List Nat :=
  x.cells.filter fun n =>
    decide (fld x.bwCells 0 5 ≤ x.relRow n) && decide (x.relRow n ≤ fld x.bwCells 5 5)
      && decide (fld x.bwCells 10 5 ≤ x.relCol n) && decide (x.relCol n ≤ fld x.bwCells 15 5)

theorem mem_bwRect (x : Part) (n : Nat) :
    n ∈ x.bwRect ↔ n ∈ x.cells ∧ fld x.bwCells 0 5 ≤ x.relRow n ∧ x.relRow n ≤ fld x.bwCells 5 5
      ∧ fld x.bwCells 10 5 ≤ x.relCol n ∧ x.relCol n ≤ fld x.bwCells 15 5 := by
  simp [Part.bwRect, and_assoc]

/-- One entry goes into a slot of a set of each listed cell. -/
def State.bindCells (cells : List Nat) (set slot : Nat) (e : Bnd.Entry) : State :=
  s.setMem fun m => { m with
    bind := cells.foldl (fun b n => Sp.set 0 b ((2 * n + set) * 65536 + slot) e) m.bind }

/-- No two triples of cell, set and slot share an index of the bind array. -/
theorem bindIndex_inj {n k sl n' k' sl' : Nat} (hk : k < 2) (hsl : sl < 65536) (hk' : k' < 2) (hsl' : sl' < 65536) :
    (2 * n + k) * 65536 + sl = (2 * n' + k') * 65536 + sl' ↔ n = n' ∧ k = k' ∧ sl = sl' := by
  omega

theorem bindEntry_bindCells (cells : List Nat) {set slot n k sl : Nat} (e : Bnd.Entry) (hset : set < 2)
    (hslot : slot < 65536) (hk : k < 2) (hsl : sl < 65536) :
    (s.bindCells cells set slot e).bindEntry n k sl
      = if n ∈ cells ∧ k = set ∧ sl = slot then e else s.bindEntry n k sl := by
  have hkey : (∃ c ∈ cells, (2 * c + set) * 65536 + slot = (2 * n + k) * 65536 + sl) ↔ n ∈ cells ∧ k = set ∧ sl = slot := by
    simp only [bindIndex_inj hset hslot hk hsl]
    constructor
    · rintro ⟨c, hc, rfl, rfl, rfl⟩
      exact ⟨hc, rfl, rfl⟩
    · rintro ⟨hn, rfl, rfl⟩
      exact ⟨n, hn, rfl, rfl, rfl⟩
  simp only [← hkey]
  exact Sp.get_foldl_set 0 e (fun c => (2 * c + set) * 65536 + slot) ((2 * n + k) * 65536 + sl) cells s.mem.bind

theorem bindCells_setPart_frame (p : Nat) (x : Part) (cells : List Nat) (set slot : Nat) (e : Bnd.Entry) :
    { (s.setPart p x).bindCells cells set slot e with parts := s.parts, mem := s.mem } = s := by
  cases s; rfl

theorem execBindWrite_open {p : Nat} (v : Word)
    (h : (s.part p).st ≠ .released ∨ fld (s.part p).bwSlot 16 1 ≠ (s.part p).bset) :
    execBindWrite p v s =
      let x := { s.part p with bwE := Sp.set 0 (s.part p).bwE 3 v }
      .next ((s.setPart p { x with bwBusy := true }).bindCells (s.part p).bwRect (fld x.bwSlot 16 1) (fld x.bwSlot 0 16)
        x.bwEntry) := by
  have hopen : ((s.part p).st == .released && fld (s.part p).bwSlot 16 1 == (s.part p).bset) = false := by
    simpa [Decidable.imp_iff_not_or] using h
  exact if_neg (by simp [hopen])

theorem execBindWrite_releasedSet {p : Nat} (v : Word) (hst : (s.part p).st = .released)
    (hset : fld (s.part p).bwSlot 16 1 = (s.part p).bset) :
    execBindWrite p v s = .next (s.setPart p { s.part p with bwE := Sp.set 0 (s.part p).bwE 3 v, bwIgn := true }) := by
  simp [execBindWrite, hst, hset]

end

end Sys2Proof.Machine

namespace Sys2Proof.Proofs
open Machine

theorem bindWriteReachesRectangle : Claims.BindWriteReachesRectangle := by
  intro p v s
  refine ⟨fun h => ?_, fun hst hset => ?_, _, rfl, setPart_part_same .., onlyPart_setPart s p _⟩
  · have hset := fld_lt (s.part p).bwSlot 16 1
    have hslot := fld_lt (s.part p).bwSlot 0 16
    refine ⟨_, execBindWrite_open s v h, fun n hn => ?_, fun n k sl hk hsl hout => ?_, ?_,
      fun q hq => setPart_part_ne s _ hq, ⟨rfl, rfl, rfl, rfl⟩, rfl, bindCells_setPart_frame ..⟩
    · exact (bindEntry_bindCells _ _ _ hset hslot hset hslot).trans (if_pos ⟨(mem_bwRect _ n).2 hn, rfl, rfl⟩)
    · exact (bindEntry_bindCells _ _ _ hset hslot hk hsl).trans
        (if_neg fun h => hout (h.imp_left (mem_bwRect _ n).1))
    · exact congrArg Part.bwBusy (setPart_part_same s p _)
  · refine ⟨_, execBindWrite_releasedSet s v hst hset, ?_, rfl, onlyPart_setPart s p _⟩
    rw [setPart_part_same]

/-- Settles O11, from its two claims. -/
theorem stepCountDeadlineAndBindWrites : Obligations.StepCountDeadlineAndBindWrites :=
  ⟨stepCountAndDeadlineWrites, bindWriteReachesRectangle⟩

end Sys2Proof.Proofs

/-! O9: RELEASE starts the step, reports the check that fails, or is discarded (R126, R202). -/
namespace Sys2Proof.Machine

section
variable (s : State)

/-- No error stands in the pages that the reads of a plate's image touch (R80, R137). -/
def PagesClean (pl : Plate) : Prop := ∀ g ∈ 0 :: pl.pages, errsIn s.mem.panErr (g * pageBytes) pageBytes = []

theorem errsIn_sub {l : Sparse Nat} {a n a' n' : Nat} (h : errsIn l a n = []) (hlo : a ≤ a') (hhi : a' + n' ≤ a + n) :
    errsIn l a' n' = [] := by
  simp only [errsIn, List.filter_eq_nil_iff, Bool.and_eq_true, decide_eq_true_eq] at h ⊢
  exact fun e he hin => h e he (by omega)

theorem panFetch_of_clean {a n : Nat} (h : errsIn s.mem.panErr a n = []) :
    s.panFetch a n = (some (Memory.read s.mem.pan a n), s) := by
  simp [State.panFetch, h]

theorem getD_mem_zero_cons (l : List Nat) (i : Nat) : l.getD i 0 ∈ 0 :: l := by
  by_cases h : i < l.length
  · simp [List.getD_eq_getElem?_getD, h]
  · simp [List.getD_eq_getElem?_getD, Nat.le_of_not_lt h]

/-- A read within one page of a plate whose pages hold no error. -/
theorem panFetch_plate {pl : Plate} (h : PagesClean s pl) (off len : Nat) :
    ∃ b, s.panFetch (pl.pages.getD (off / pageBytes) 0 * pageBytes + off % pageBytes) (min len (pageBytes - off % pageBytes))
      = (some b, s) := by
  have hpage := h _ (getD_mem_zero_cons pl.pages (off / pageBytes))
  have hoff : off % pageBytes < pageBytes := Nat.mod_lt off (by decide)
  exact ⟨_, panFetch_of_clean s (errsIn_sub hpage (by omega) (by omega))⟩

theorem plateFetch_of_clean {pl : Plate} (h : PagesClean s pl) (k off len : Nat) :
    (State.plateFetch k s pl off len).2 = s := by
  induction k generalizing off len with
  | zero => rfl
  | succ k ih =>
    rw [State.plateFetch]
    split
    · rfl
    · obtain ⟨b, hfetch⟩ := panFetch_plate s h off len
      simp only [hfetch]
      have hrest := ih (off + min len (pageBytes - off % pageBytes)) (len - min len (pageBytes - off % pageBytes))
      split <;> rename_i heq <;> rw [heq] at hrest <;> exact hrest

end

/-- `t` differs from `s` at most in the dedicated buffer and the power state of partition `p`, in cells and in blocks: what
the start of its step does beside the entry of the step itself (R80, R358). -/
structure StartFrame (p : Nat) (s t : State) : Prop where
  part : ∃ b w, t.part p = { s.part p with pinBuf := b, pw := w }
  others : ∀ q, q ≠ p → t.part q = s.part q
  mem : t.mem = s.mem
  fns : t.fns = s.fns
  clk : t.clk = s.clk

namespace StartFrame
variable {p : Nat} {s t u : State}

theorem refl : StartFrame p s s := ⟨⟨_, _, rfl⟩, fun _ _ => rfl, rfl, rfl, rfl⟩

theorem trans (h : StartFrame p s t) (k : StartFrame p t u) : StartFrame p s u := by
  obtain ⟨b, w, ht⟩ := h.part
  obtain ⟨b', w', hu⟩ := k.part
  exact ⟨⟨b', w', by rw [hu, ht]⟩, fun q hq => (k.others q hq).trans (h.others q hq), k.mem.trans h.mem,
    k.fns.trans h.fns, k.clk.trans h.clk⟩

theorem foldl {α : Type} {f : State → α → State} (h : ∀ t a, StartFrame p t (f t a)) (l : List α) :
    StartFrame p s (l.foldl f s) :=
  List.foldlRecOn l f (motive := StartFrame p s) refl fun t ht a _ => ht.trans (h t a)

theorem setPart {b : Bytes} {w : PartPower} : StartFrame p s (s.setPart p { s.part p with pinBuf := b, pw := w }) :=
  ⟨⟨b, w, setPart_part_same ..⟩, fun _ hq => setPart_part_ne s _ hq, rfl, rfl, rfl⟩

theorem setCell (n : Nat) (x : CellState) : StartFrame p s (s.setCell n x) :=
  ⟨⟨_, _, rfl⟩, fun _ _ => rfl, rfl, rfl, rfl⟩

theorem setBlock (b : Nat) (x : Block) : StartFrame p s (s.setBlock b x) :=
  ⟨⟨_, _, rfl⟩, fun _ _ => rfl, rfl, rfl, rfl⟩

end StartFrame

section
variable (s : State) {p lcnt bset : Nat}

theorem clearIdle_frame (p : Nat) : StartFrame p s (s.clearIdle p) := by
  have hblocks (t : State) (l : List Nat) :
      StartFrame p t (l.foldl (fun s b => s.onBlock b fun k => { k with on := true }) t) :=
    .foldl (fun u b => .setBlock b _) l
  have hcells (t : State) (l : List Nat) :
      StartFrame p t (l.foldl (fun s n => s.onCell n fun c => { c with lastTile := [] }) t) :=
    .foldl (fun u n => .setCell n _) l
  simp only [State.clearIdle]
  split
  · exact .setPart
  · split
    · exact StartFrame.setPart.trans (hcells ..)
    · exact .setPart
  · split
    · exact StartFrame.setPart.trans (hcells ..)
    · exact .setPart
  · exact StartFrame.setPart.trans (hblocks ..)

theorem loadPinned_frame {hs : List Nat} (h : Claims.PinnedClean s (s.part p) hs) : StartFrame p s (s.loadPinned p hs) := by
  fun_cases State.loadPinned s p hs
  case case1 hd pl hpl hpinned b t heq =>
    have ht := plateFetch_of_clean s (fun g hg => h hd pl g rfl hpl hpinned hg) 2 pl.segOff pl.segBytes
    rw [heq] at ht
    subst ht
    exact .setPart
  all_goals exact .refl

theorem loadPinned_clearIdle_frame {hs : List Nat} (h : Claims.PinnedClean s (s.part p) hs) (awake : Bool) :
    StartFrame p s (if awake then s.loadPinned p hs else (s.loadPinned p hs).clearIdle p) := by
  split
  · exact loadPinned_frame s h
  · exact (loadPinned_frame s h).trans (clearIdle_frame _ p)

theorem pinnedClean_setPart {x y : Part} {hs : List Nat} (hplates : y.plates = x.plates)
    (h : Claims.PinnedClean s x hs) : Claims.PinnedClean (s.setPart p y) ((s.setPart p y).part p) hs := by
  intro hd pl g hhs hpl
  rw [setPart_part_same, Part.plate, hplates] at hpl
  exact h hd pl g hhs hpl

/-- The entry of a partition whose step has started from entry `x` (R126, R202). -/
structure StepStarted (x : Part) (hs : List Nat) (bset : Nat) (y : Part) : Prop where
  st : y.st = .released
  bset : y.bset = bset
  handles : y.handles = hs
  dl : y.dl = x.dl
  armed : y.armed = (x.dl != 0)
  step : y.step = x.step

theorem StepStarted.of_frame {x y : Part} {hs : List Nat} {t : State} (h : StepStarted x hs bset y)
    (hframe : StartFrame p (s.setPart p y) t) : StepStarted x hs bset (t.part p) := by
  obtain ⟨b, w, hpart⟩ := hframe.part
  rw [hpart, setPart_part_same]
  exact ⟨h.st, h.bset, h.handles, h.dl, h.armed, h.step⟩

theorem startStep_frame {hs : List Nat} (h : Claims.PinnedClean s (s.part p) hs) :
    ∃ y, StepStarted (s.part p) hs bset y ∧ StartFrame p (s.setPart p y) (s.startStep p hs bset) := by
  refine ⟨_, ?_, loadPinned_clearIdle_frame (s.setPart p _) (pinnedClean_setPart s ?_ h) _⟩
  · exact ⟨rfl, rfl, rfl, rfl, rfl, rfl⟩
  · rfl

/-- The states from which a RELEASE is judged (R202, R436, R473). -/
def MayRelease (p : Nat) : Prop :=
  (s.part p).st = .boundary ∧ (s.part p).present = true ∧ (s.part p).failed = false ∧ s.underScrub p = false

theorem release_of_may (h : MayRelease s p) :
    s.release p lcnt bset = if releaseErr s (s.part p) lcnt bset = 0 then s.startStep p ((s.part p).listHandles lcnt) bset
      else s.setPart p { s.part p with err := releaseErr s (s.part p) lcnt bset } := by
  obtain ⟨hst, hpresent, hfailed, hscrub⟩ := h
  simp [State.release, hst, hpresent, hfailed, hscrub]

theorem release_of_not_may (h : ¬ MayRelease s p) :
    s.release p lcnt bset = s.setPart p { s.part p with ctlIgn := true } := by
  refine if_pos ?_
  simpa [MayRelease, Decidable.imp_iff_not_or, or_assoc] using h

end

end Sys2Proof.Machine

namespace Sys2Proof.Proofs
open Machine

/-- Settles O9, by whether a RELEASE is judged and what its checks find. -/
theorem releaseStartsStepOrReports : Obligations.ReleaseStartsStepOrReports := by
  intro p lcnt bset s
  refine ⟨fun hmay herr hclean => ?_, fun hmay herr => ?_, fun hmay => ?_⟩
  · obtain ⟨y, hstarted, hframe⟩ := startStep_frame s (bset := bset % 2) hclean
    obtain ⟨hst, hbset, hhandles, hdl, harmed, hstep⟩ := hstarted.of_frame s hframe
    exact ⟨_, congrArg Host.Outcome.next ((release_of_may s hmay).trans (if_pos herr)), hst, hbset, hhandles, hdl, harmed,
      hstep, fun q hq => (hframe.others q hq).trans (setPart_part_ne s y hq), hframe.mem, hframe.fns, hframe.clk⟩
  · exact ⟨_, congrArg Host.Outcome.next ((release_of_may s hmay).trans (if_neg herr)), setPart_part_same ..,
      onlyPart_setPart s p _⟩
  · exact ⟨_, congrArg Host.Outcome.next (release_of_not_may s hmay), setPart_part_same .., onlyPart_setPart s p _⟩

end Sys2Proof.Proofs

/-! O15, barriers: one pends, completes and is released block by block (R117, R119). -/
namespace Sys2Proof.Machine

section
variable (s : State) {p : Nat} {b : Barrier} {rest : List Barrier}

theorem execBarrier_pends {seg : Nat} {d : Desc} {q : List (Nat × Desc)} (hst : (s.part p).st = .released)
    (hq : (s.part p).seqq = (seg, d) :: q) (hopc : Dsc.opc d = 9) :
    execBarrier p s = .next (s.setPart p { s.part p with
      seqq := q
      barriers := (s.part p).barriers ++ [{ seg := seg, bid := Dsc.bid d, stagger := Dsc.stagger d }] }) := by
  simp [execBarrier, hst, hq, hopc]

/-- The barriers left when the oldest completes: it stays while its stagger has further blocks to release (R119). -/
theorem execBarrierComplete_of_allComplete (hst : (s.part p).st = .released) (hb : (s.part p).barriers = b :: rest)
    (hdone : b.done = false) (hall : allComplete s (s.part p) b.seg = true) :
    execBarrierComplete p s = .next (s.setPart p { s.part p with
      lastBid := b.bid
      quiet := 0
      barriers := if b.stagger = true ∧ 1 < (s.part p).blocks.length
        then { b with done := true, at_ := s.seqCycle, released := 1 } :: rest else rest }) := by
  simp [execBarrierComplete, hst, hb, hdone, hall]

theorem execStaggerRelease_of_due (hb : (s.part p).barriers = b :: rest) (hdone : b.done = true)
    (hstagger : b.stagger = true) (hdue : b.at_ + 8 * b.released ≤ s.seqCycle) :
    execStaggerRelease p s = .next (s.setPart p { s.part p with
      quiet := 0
      barriers := if (s.part p).blocks.length ≤ b.released + 1 then rest
        else { b with released := b.released + 1 } :: rest }) := by
  simp [execStaggerRelease, hb, hdone, hstagger, hdue]

end

end Sys2Proof.Machine

namespace Sys2Proof.Proofs
open Machine

theorem barriersPendCompleteAndStagger : Claims.BarriersPendCompleteAndStagger := by
  intro p s hst
  refine ⟨fun seg d rest hq hopc => ?_, fun b rest hb hdone hall => ?_, fun b rest hb hdone hstagger hdue => ?_⟩
  · refine ⟨_, execBarrier_pends s hst hq hopc, ?_, ?_, onlyPart_setPart s p _⟩ <;> rw [setPart_part_same]
  · refine ⟨_, execBarrierComplete_of_allComplete s hst hb hdone hall, ?_, onlyPart_setPart s p _, ?_⟩ <;>
      rw [setPart_part_same]
  · refine ⟨_, execStaggerRelease_of_due s hb hdone hstagger hdue, onlyPart_setPart s p _, ?_⟩
    rw [setPart_part_same]

end Sys2Proof.Proofs

/-! O15, the limiter: a block's waiting engines are granted in order, sixteen in 8 sequencer cycles at most (R121). -/
namespace Sys2Proof.Machine

section
variable (s : State) {b p : Nat}

/-- The engine of a block that a grant goes to: the first that waits, by cell position and then engine (R121). -/
def State.nextGrant (x : Part) (b : Nat) : Option (Nat × Nat) :=
  (blockCells b).findSome? fun n => ((List.range 4).find? fun e => wantsGrant s x n e).map fun e => (n, e)

theorem nextGrant_waits {x : Part} {n e : Nat} (h : s.nextGrant x b = some (n, e)) :
    n ∈ blockCells b ∧ e < 4 ∧ wantsGrant s x n e = true := by
  obtain ⟨m, hm, hfind⟩ := List.exists_of_findSome?_eq_some h
  obtain ⟨i, hi, heq⟩ := Option.map_eq_some_iff.1 hfind
  obtain ⟨rfl, rfl⟩ := Prod.mk.inj heq
  exact ⟨hm, List.mem_range.1 (List.mem_of_find?_eq_some hi), List.find?_some hi⟩

theorem exists_nextGrant {x : Part} {n e : Nat} (hn : n ∈ blockCells b) (he : e < 4) (hw : wantsGrant s x n e = true) :
    ∃ g, s.nextGrant x b = some g := by
  refine Option.isSome_iff_exists.1 (List.findSome?_isSome_iff.2 ⟨n, hn, ?_⟩)
  rw [Option.isSome_map]
  exact List.find?_isSome.2 ⟨e, List.mem_range.2 he, hw⟩

/-- The grants of a block that fall in the last 8 sequencer cycles (R121). -/
def State.recentGrants (b : Nat) : List Nat := (s.block b).grants.filter fun c => decide (s.seqCycle < c + 8)

/-- The state after a grant of a block's limiter to an engine of a cell (R121, R123). -/
def State.granted (b p n e : Nat) : State :=
  ((s.setBlock b { s.block b with grants := s.recentGrants b ++ [s.seqCycle] }).onCell n
    fun c => { c with grants := c.grants ++ [e] }).progress p

theorem execLimiterGrant_grants {n e : Nat} (hown : s.owner b = some p) (hst : (s.part p).st = .released)
    (hroom : (s.recentGrants b).length < 16) (hnext : s.nextGrant (s.part p) b = some (n, e)) :
    execLimiterGrant b s = .next (s.granted b p n e) := by
  simp only [State.nextGrant] at hnext
  simp only [execLimiterGrant, hown, hnext]
  exact if_pos ⟨by simp [hst], hroom⟩

theorem execLimiterGrant_full (hown : s.owner b = some p) (hfull : 16 ≤ (s.recentGrants b).length) :
    execLimiterGrant b s = .next s := by
  simp only [execLimiterGrant, hown]
  split
  · exact if_neg fun h => Nat.not_lt.2 hfull h.2
  · rfl

theorem granted_block_grants (b p n e : Nat) :
    ((s.granted b p n e).block b).grants = s.recentGrants b ++ [s.seqCycle] := by
  simp [State.granted, State.progress]

theorem granted_cell_grants (b p n e : Nat) : ((s.granted b p n e).cell n).grants = (s.cell n).grants ++ [e] := by
  simp [State.granted, State.progress]

theorem granted_cell_ne {n m : Nat} (b p e : Nat) (h : m ≠ n) : (s.granted b p n e).cell m = s.cell m := by
  simp [State.granted, State.progress, setCell_cell_ne, h]

theorem granted_frame (b p n e : Nat) :
    { s.granted b p n e with cells := s.cells, parts := s.parts, blocks := s.blocks } = s := by
  cases s; rfl

end

end Sys2Proof.Machine

namespace Sys2Proof.Proofs
open Machine

theorem limiterGrantsAtMostSixteen : Claims.LimiterGrantsAtMostSixteen := by
  intro b p s hown hst
  refine ⟨fun hroom ⟨n, e, hn, he, hw⟩ => ?_, fun hfull => execLimiterGrant_full s hown hfull⟩
  obtain ⟨⟨m, i⟩, hnext⟩ := exists_nextGrant s hn he hw
  exact ⟨_, execLimiterGrant_grants s hown hst hroom hnext, granted_block_grants ..,
    ⟨m, i, nextGrant_waits s hnext, granted_cell_grants .., fun _ hm => granted_cell_ne s b p i hm⟩, granted_frame ..⟩

/-- Settles O15, from its two claims. -/
theorem barriersAndLimiter : Obligations.BarriersAndLimiter :=
  ⟨barriersPendCompleteAndStagger, limiterGrantsAtMostSixteen⟩

end Sys2Proof.Proofs

/-! O2: a step on an empty queue is one tick, and what a tick leaves (R125). -/
namespace Sys2Proof.Machine

/-- What a tick leaves but for the deadline tick itself: the clock, the bytes of the memories, the queue, the tenants, the
latches, bring-up, the pair, the faults, the DDR4 channels and the Watchtower. -/
def State.tickKept (s : State) :=
  (s.clk, s.mem.pan, s.mem.ss, s.mem.cold, s.mem.dome, s.pending, s.tenants, s.latch, s.lowBuf, s.bru, s.pair, s.faults,
    s.ddr, s.watch)

section
variable (s : State)

theorem State.tickKept_foldl {α : Type} {f : State → α → State} (h : ∀ t a, (f t a).tickKept = t.tickKept) (l : List α) :
    (l.foldl f s).tickKept = s.tickKept :=
  List.foldlRecOn l f (motive := fun t => t.tickKept = s.tickKept) rfl fun t ht a _ => (h t a).trans ht

-- The updates of which a tick is made.

@[simp] theorem tickKept_setCell (n : Nat) (x : CellState) : (s.setCell n x).tickKept = s.tickKept := rfl
@[simp] theorem tickKept_setPart (p : Nat) (x : Part) : (s.setPart p x).tickKept = s.tickKept := rfl
@[simp] theorem tickKept_setHp (h f : Nat) (x : HostPort) : (s.setHp h f x).tickKept = s.tickKept := rfl
@[simp] theorem tickKept_setVpair (k : Nat) (x : VidPair) : (s.setVpair k x).tickKept = s.tickKept := rfl

/-- A soft error marks a codeword; the bytes stay (log 13). -/
@[simp] theorem tickKept_upset (u : Config.Upset) : (s.upset u).tickKept = s.tickKept := by
  cases u with simp only [State.upset, State.setMem]
  | pan cw => split <;> rfl
  | staging cw => split <;> rfl
  | cold cw dev => split <;> rfl

@[simp] theorem tickKept_tickWaits (x : Part) (n beats : Nat) : (s.tickWaits x n beats).tickKept = s.tickKept := by
  simp only [State.tickWaits]
  split
  · rfl
  · refine (State.tickKept_foldl _ ?_ _).trans rfl
    exact fun _ _ => rfl

@[simp] theorem tickKept_tickCell (p n : Nat) : (s.tickCell p n).tickKept = s.tickKept := by
  simp only [State.tickCell, tickKept_tickWaits]
  split <;> rfl

@[simp] theorem tickKept_tickQuiet (p : Nat) : (s.tickQuiet p).tickKept = s.tickKept := rfl

/-- FREE of a page changes its entry; its bytes stay until the fill (R154, R155). -/
@[simp] theorem tickKept_freePages (rows : List Nat) : (s.freePages rows).tickKept = s.tickKept :=
  State.tickKept_foldl s (fun _ _ => by dsimp only; split <;> rfl) rows

@[simp] theorem tickKept_unloadPlate (p h : Nat) : (s.unloadPlate p h).tickKept = s.tickKept := by
  rw [State.unloadPlate]
  split
  · rfl
  · exact tickKept_freePages s _

@[simp] theorem tickKept_respond (f seq opc result : Nat) (body : Bytes) :
    (s.respond f seq opc result body).tickKept = s.tickKept := rfl

@[simp] theorem tickKept_runUnloads (p : Nat) : (s.runUnloads p).tickKept = s.tickKept :=
  State.tickKept_foldl s (fun t u => by simp) _

@[simp] theorem tickKept_tickPart (p : Nat) : (s.tickPart p).tickKept = s.tickKept := by
  have hcells (l : List Nat) : (l.foldl (fun s n => s.tickCell p n) s).tickKept = s.tickKept :=
    State.tickKept_foldl s (fun t n => tickKept_tickCell t p n) l
  simp only [State.tickPart]
  split
  · rfl
  · split <;> split <;> simp [hcells]

@[simp] theorem tickKept_runAhead (k : Nat) : (s.runAhead k).tickKept = s.tickKept := rfl

@[simp] theorem tickKept_signal (h f vec : Nat) : (s.signal h f vec).tickKept = s.tickKept := by
  simp only [State.signal]
  split
  · rfl
  · split <;> rfl

@[simp] theorem tickKept_hpFlag (h f i : Nat) : (s.hpFlag h f i).tickKept = s.tickKept := by
  simp only [State.hpFlag]
  split
  · rfl
  · split <;> simp

@[simp] theorem tickKept_tickRing (h f : Nat) : (s.tickRing h f).tickKept = s.tickKept := by
  simp only [State.tickRing]
  split
  · rfl
  · split <;> simp

/-- While the tick runs, one tick advances it and keeps the rest of what `tickKept` names. -/
theorem tickKept_oneTick (h : s.clk.running = true) :
    s.oneTick.tickKept = (s.onClk fun c => { c with tick := (c.tick + 1) % 2 ^ 64 }).tickKept := by
  simp only [State.oneTick, h, Bool.not_true, Bool.false_eq_true, if_false]
  rw [State.tickKept_foldl _ fun t i => tickKept_tickRing t _ _,
    State.tickKept_foldl _ fun t k => by split <;> simp,
    State.tickKept_foldl _ fun t p => tickKept_tickPart t p,
    State.tickKept_foldl _ fun t u => tickKept_upset t u]
  rfl

/-- Before the tick runs nothing passes (R125). -/
theorem oneTick_of_not_running (h : s.clk.running = false) : s.oneTick = s := by
  simp [State.oneTick, h]

theorem step_of_pending_nil (h : s.pending = []) : step s = .next s.oneTick := by
  rw [step, h]

end

end Sys2Proof.Machine

namespace Sys2Proof.Proofs
open Machine

/-- Settles O2, from what one tick keeps. -/
theorem idleStepIsOneTick : Obligations.IdleStepIsOneTick := by
  intro s hpending
  refine ⟨fun hrun => ?_, fun hstop => ?_⟩
  · have hkept := tickKept_oneTick s hrun
    simp only [State.tickKept, Prod.mk.injEq] at hkept
    obtain ⟨hclk, hpan, hss, hcold, hdome, hqueue, hrest⟩ := hkept
    exact ⟨_, step_of_pending_nil s hpending, hclk, ⟨hpan, hss, hcold, hdome⟩, hqueue.trans hpending, hrest⟩
  · rw [step_of_pending_nil s hpending, oneTick_of_not_running s hstop]

end Sys2Proof.Proofs

/-! O24: what a lane of a GATHER does (R163, R164), and a MATVEC over a slot bound to no row (R179, R180). -/
namespace Sys2Proof.Machine

-- Byte strings and byte memories.

theorem length_le (k n : Nat) : (le k n).length = k := by
  induction k generalizing n with
  | zero => rfl
  | succ k ih => simp [le, ih]

/-- The bytes of the natural that a byte string holds are that string (R3). -/
theorem le_leNat (b : Bytes) : le b.length (leNat b) = b := by
  induction b with
  | nil => rfl
  | cons x t ih =>
    have hdiv : (x.toNat + 256 * leNat t) / 256 = leNat t := by have := x.isLt; omega
    have hbyte : BitVec.ofNat 8 (x.toNat + 256 * leNat t) = x := by
      apply BitVec.eq_of_toNat_eq
      have := x.isLt
      simp only [BitVec.toNat_ofNat]
      omega
    rw [List.length_cons, leNat, le, hbyte, hdiv, ih]

theorem le_zero_right (k : Nat) : le k 0 = zeros k := by
  induction k with
  | zero => rfl
  | succ k ih => rw [le, Nat.zero_div, ih]; rfl

theorem length_slice {b : Bytes} {off len : Nat} (h : off + len ≤ b.length) : (slice b off len).length = len := by
  simp only [slice, List.length_take, List.length_drop]
  omega

theorem getD_slice (b : Bytes) (off : Nat) {len k : Nat} (h : k < len) : (slice b off len).getD k 0 = b.getD (off + k) 0 := by
  simp [slice, List.getD_eq_getElem?_getD, h]

theorem getD_append_of_lt {b : Bytes} (c : Bytes) {k : Nat} (h : k < b.length) : (b ++ c).getD k 0 = b.getD k 0 := by
  rw [List.getD_eq_getElem?_getD, List.getElem?_append_left h, List.getD_eq_getElem?_getD]

theorem getD_append_add (b c : Bytes) (k : Nat) : (b ++ c).getD (b.length + k) 0 = c.getD k 0 := by
  rw [List.getD_eq_getElem?_getD, List.getElem?_append_right (Nat.le_add_right ..), Nat.add_sub_cancel_left,
    List.getD_eq_getElem?_getD]

theorem getD_zeros (n k : Nat) : (zeros n).getD k 0 = 0 := by
  rw [zeros, List.getD_eq_getElem?_getD, List.getElem?_replicate]
  split <;> rfl

theorem length_flatMap_parts {f : Nat → Bytes} {w m : Nat} (hw : ∀ i < m, (f i).length = w) :
    ((List.range m).flatMap f).length = w * m := by
  induction m with
  | zero => rfl
  | succ m ih =>
    rw [List.range_succ, List.flatMap_append, List.length_append, ih fun i hi => hw i (by omega)]
    simp [hw m (by omega), Nat.mul_succ]

/-- Byte `k` of part `i` of a string of `m` parts of `w` bytes each. -/
theorem getD_flatMap_parts {f : Nat → Bytes} {w m i k : Nat} (hw : ∀ i < m, (f i).length = w) (hi : i < m) (hk : k < w) :
    ((List.range m).flatMap f).getD (w * i + k) 0 = (f i).getD k 0 := by
  induction m with
  | zero => omega
  | succ m ih =>
    have hlow : ∀ i < m, (f i).length = w := fun i hi => hw i (by omega)
    have hlen := length_flatMap_parts hlow
    rw [List.range_succ, List.flatMap_append]
    obtain hi | rfl := Nat.lt_or_eq_of_le (Nat.le_of_lt_succ hi)
    · have hin : w * i + k < w * m :=
        calc w * i + k < w * (i + 1) := by rw [Nat.mul_succ]; omega
          _ ≤ w * m := Nat.mul_le_mul_left w hi
      rw [getD_append_of_lt _ (by omega), ih hlow hi]
    · rw [← hlen, getD_append_add, List.flatMap_singleton]

theorem Memory.length_read (m : List Host.Cell) (a n : Nat) : (Memory.read m a n).length = n := by simp [Memory.read, Sp.read]

theorem Memory.getD_read (m : List Host.Cell) (a : Nat) {n k : Nat} (h : k < n) :
    (Memory.read m a n).getD k 0 = Memory.byte m (a + k) := by
  simp [Memory.read, Sp.read, Memory.byte, List.getD_eq_getElem?_getD, h]

-- A started operation, its work done, and a read of the staging store.

theorem mem_ops_of_startedOp {s : State} {n u opc p : Nat} {o : CellOp} (h : startedOp s n u opc = some (p, o)) :
    o ∈ (s.cell n).ops := by
  simp only [startedOp] at h
  split at h
  · cases h
  · split at h
    · cases h
    · next hfind =>
      split at h
      · cases h
      · cases h
        exact List.mem_of_find?_eq_some hfind

section
variable (s : State)

theorem workDone_cell_ne {n m : Nat} (u : Nat) (o : CellOp) (h : m ≠ n) : (s.workDone n u o).cell m = s.cell m :=
  setCell_cell_ne s _ h

theorem workDone_frame (n u : Nat) (o : CellOp) : { s.workDone n u o with cells := s.cells } = s := setCell_frame s n _

theorem mem_addOnce {α : Type} [DecidableEq α] (x : α) (l : List α) : x ∈ addOnce x l := by
  rw [addOnce]
  split
  · assumption
  · simp

/-- The operation of which a unit's work is done names that unit in `worked` (R113). -/
theorem workDone_worked {n : Nat} {o : CellOp} (u : Nat) (h : o ∈ (s.cell n).ops) :
    ∃ q, q ∈ ((s.workDone n u o).cell n).ops ∧ q.id = o.id ∧ u ∈ q.worked := by
  refine ⟨{ o with worked := addOnce u o.worked }, ?_, rfl, mem_addOnce u o.worked⟩
  simp only [State.workDone, onCell_eq, setCell_cell_same]
  exact List.mem_map.2 ⟨o, h, if_pos rfl⟩

theorem ssFetch_of_clean {n a len : Nat} (h : errsIn s.mem.ssErr (262144 * n + a) len = []) :
    s.ssFetch n a len = (some (Memory.read s.mem.ss (262144 * n + a) len), s) := by
  simp [State.ssFetch, h]

end

namespace Lane

theorem ssBytes_of_clean {s : State} (h : s.mem.ssErr = []) (n unit units : Nat) :
    ssBytes s n unit units = .ok (Memory.read s.mem.ss (262144 * n + 32 * unit) (32 * units), s) := by
  rw [ssBytes, ssFetch_of_clean s (by rw [h]; rfl)]

theorem slotPage_of_unbound {s : State} {a : At} (h : Bnd.typ (s.bindEntry a.n (s.part a.p).bset a.slot) = 0) (attn : Bool) :
    slotPage s a attn = .ok none := by
  simp [slotPage, h]

-- The outputs of a MATVEC over no row (R179, R180).

/-- Units of the outputs of one input vector (R180). -/
def Mat.outUnits (m : Mat) : Nat := (m.nr + 7) / 8

section
variable (m : Mat) (qfmt fmt : Nat) (vec old : Bytes)

/-- The word that a MATVEC over no row writes: the old one with ACC, and 0 without (R180). -/
def Mat.unboundWord (i : Nat) : Bytes := le 4 (if m.acc then u32 old (4 * i) else 0)

theorem length_unboundWord (i : Nat) : (m.unboundWord old i).length = 4 := length_le 4 _

theorem getD_unboundWord {i k : Nat} (hi : 4 * i + 4 ≤ old.length) (hk : k < 4) :
    (m.unboundWord old i).getD k 0 = if m.acc = true then old.getD (4 * i + k) 0 else 0 := by
  rw [Mat.unboundWord]
  split
  · have hle := le_leNat (slice old (4 * i) 4)
    rw [length_slice hi] at hle
    rw [u32, hle, getD_slice old _ hk]
  · rw [le_zero_right, getD_zeros]

theorem matOutputs_unbound :
    (matOutputs m qfmt fmt none vec old).1 = (List.range m.nr).flatMap (m.unboundWord old) ++ old.drop (4 * m.nr) := by
  simp only [matOutputs, List.flatMap_map]
  rfl

variable {old}

theorem length_matOutputs_unbound (h : 4 * m.nr ≤ old.length) :
    (matOutputs m qfmt fmt none vec old).1.length = old.length := by
  rw [matOutputs_unbound, List.length_append, length_flatMap_parts fun i _ => length_unboundWord m old i, List.length_drop]
  omega

theorem getD_matOutputs_unbound (h : 4 * m.nr ≤ old.length) {i k : Nat} (hi : i < m.nr) (hk : k < 4) :
    (matOutputs m qfmt fmt none vec old).1.getD (4 * i + k) 0 = if m.acc = true then old.getD (4 * i + k) 0 else 0 := by
  have hlen := length_flatMap_parts (m := m.nr) fun i _ => length_unboundWord m old i
  rw [matOutputs_unbound, getD_append_of_lt _ (by omega),
    getD_flatMap_parts (fun i _ => length_unboundWord m old i) hi hk, getD_unboundWord m old (by omega) hk]

end

section
variable (m : Mat) (qfmt fmt : Nat) (rec old : Bytes)

/-- The outputs of the input vectors of a record over no row, from the record and the old bytes of their place (R180). -/
def vecOutputs : List (Bytes × Flags) :=
  (List.range m.nvec).map (fun v => matOutputs m qfmt fmt none
    (slice rec (32 * (1 + v * (Engine.rowBytes qfmt m.k / 32))) (32 * (Engine.rowBytes qfmt m.k / 32)))
    (slice old (32 * v * m.outUnits) (32 * m.outUnits)))

variable {old}

/-- The old bytes of one vector's outputs hold its NR words. -/
theorem length_slice_outputs (h : old.length = 32 * (m.nvec * m.outUnits)) {v : Nat} (hv : v < m.nvec) :
    (slice old (32 * v * m.outUnits) (32 * m.outUnits)).length = 32 * m.outUnits := by
  apply length_slice
  have hmul : (v + 1) * m.outUnits ≤ m.nvec * m.outUnits := Nat.mul_le_mul_right _ hv
  rw [Nat.add_mul, Nat.one_mul] at hmul
  rw [Nat.mul_assoc, h]
  omega

theorem four_mul_nr_le_outUnits : 4 * m.nr ≤ 32 * m.outUnits := by
  rw [Mat.outUnits]
  omega

theorem length_vecOutputs (h : old.length = 32 * (m.nvec * m.outUnits)) :
    ((vecOutputs m qfmt fmt rec old).flatMap (·.1)).length = 32 * (m.nvec * m.outUnits) := by
  rw [vecOutputs, List.flatMap_map, length_flatMap_parts (w := 32 * m.outUnits), Nat.mul_assoc, Nat.mul_comm m.nvec]
  intro v hv
  have hold := length_slice_outputs m h hv
  rw [length_matOutputs_unbound _ _ _ _ (Nat.le_trans (four_mul_nr_le_outUnits m) (Nat.le_of_eq hold.symm)), hold]

theorem getD_vecOutputs (h : old.length = 32 * (m.nvec * m.outUnits)) {v i k : Nat} (hv : v < m.nvec) (hi : i < m.nr)
    (hk : k < 4) : ((vecOutputs m qfmt fmt rec old).flatMap (·.1)).getD (32 * m.outUnits * v + (4 * i + k)) 0
      = if m.acc = true then old.getD (32 * m.outUnits * v + (4 * i + k)) 0 else 0 := by
  have hold : ∀ w < m.nvec, _ := fun w hw => length_slice_outputs m h hw
  have hnr := four_mul_nr_le_outUnits m
  rw [vecOutputs, List.flatMap_map, getD_flatMap_parts (w := 32 * m.outUnits) _ hv (by omega),
    getD_matOutputs_unbound _ _ _ _ (Nat.le_trans hnr (Nat.le_of_eq (hold v hv).symm)) hi hk, getD_slice old _ (by omega),
    Nat.mul_right_comm]
  intro w hw
  rw [length_matOutputs_unbound _ _ _ _ (Nat.le_trans hnr (Nat.le_of_eq (hold w hw).symm)), hold w hw]

end

-- A sequence of a MATVEC over no row.

/-- A record with header `h` at a position passes every check that a MATVEC over no row makes (R178 to R180). -/
structure UnboundOk (qfmt osa : Nat) (at_ : Pos) (h : Bytes) : Prop where
  fmt : inputFmt qfmt = true
  below : at_.1 < osa
  k : 1 ≤ (mat h).k
  nr : 1 ≤ (mat h).nr
  nrMax : (mat h).nr ≤ 4096
  nvec : (mat h).nvec ≤ 64
  mode : u8 h 9 < 2
  reserved : allZero h 0x0A 22 = true
  recu : 1 + (mat h).nvec * (Engine.rowBytes qfmt (mat h).k / 32) ≤ (mat h).recu
  recEnd : at_.1 + (mat h).recu ≤ osa
  outEnd : at_.2 + (mat h).nvec * (mat h).outUnits ≤ 8192

section
variable (s : State) (n qfmt : Nat) (at_ : Pos)

/-- The header of the record at a position, as the staging store of the cell holds it (R180). -/
def headAt : Bytes := Memory.read s.mem.ss (262144 * n + 32 * at_.1) 32
def matAt : Mat := mat (headAt s n at_)

/-- The first byte of the outputs, and how many there are (R180). -/
def outBase : Nat := 262144 * n + 32 * at_.2
def outBytes : Nat := 32 * ((matAt s n at_).nvec * (matAt s n at_).outUnits)

/-- What a record over no row writes, and the flags it raises. -/
def written : List (Bytes × Flags) :=
  vecOutputs (matAt s n at_) qfmt (Pte.fmt (s.pte 0))
    (Memory.read s.mem.ss (262144 * n + 32 * at_.1) (32 * (matAt s n at_).recu))
    (Memory.read s.mem.ss (outBase n at_) (outBytes s n at_))

/-- The state after a record over no row. -/
def afterUnbound (p : Nat) : State :=
  (s.ssWrite (outBase n at_) ((written s n qfmt at_).flatMap (·.1))).addFlags p (Flags.all ((written s n qfmt at_).map (·.2)))

theorem afterUnbound_cell (p m : Nat) : (afterUnbound s n qfmt at_ p).cell m = s.cell m := rfl

/-- A byte of the outputs of a record over no row: the old one with ACC, and 0 without (R180). -/
theorem afterUnbound_byte (p : Nat) {v i k : Nat} (hv : v < (matAt s n at_).nvec) (hi : i < (matAt s n at_).nr) (hk : k < 4)
    {b : Nat} (hb : b = outBase n at_ + (32 * (matAt s n at_).outUnits * v + (4 * i + k))) :
    Memory.byte (afterUnbound s n qfmt at_ p).mem.ss b = if (matAt s n at_).acc = true then Memory.byte s.mem.ss b else 0 := by
  have hold := Memory.length_read s.mem.ss (outBase n at_) (outBytes s n at_)
  have hlen := length_vecOutputs _ qfmt (Pte.fmt (s.pte 0))
    (Memory.read s.mem.ss (262144 * n + 32 * at_.1) (32 * (matAt s n at_).recu)) hold
  have hin : 32 * (matAt s n at_).outUnits * v + (4 * i + k) < outBytes s n at_ := by
    have hrow : 4 * (matAt s n at_).nr ≤ 32 * (matAt s n at_).outUnits := four_mul_nr_le_outUnits _
    calc 32 * (matAt s n at_).outUnits * v + (4 * i + k) < 32 * (matAt s n at_).outUnits * (v + 1) := by
          rw [Nat.mul_succ]; omega
      _ ≤ 32 * (matAt s n at_).outUnits * (matAt s n at_).nvec := Nat.mul_le_mul_left _ hv
      _ = outBytes s n at_ := by rw [outBytes, Nat.mul_assoc, Nat.mul_comm (matAt s n at_).nvec]
  have hmem : (afterUnbound s n qfmt at_ p).mem.ss
      = Memory.write s.mem.ss (outBase n at_) ((written s n qfmt at_).flatMap (·.1)) := rfl
  subst hb
  rw [hmem, Memory.byte_write, if_pos ⟨by omega, by rw [written, hlen]; exact Nat.add_lt_add_left hin _⟩,
    Nat.add_sub_cancel_left, written, getD_vecOutputs _ _ _ _ hold hv hi hk, Memory.getD_read _ _ hin]

/-- Every byte outside the outputs of a record over no row stays. -/
theorem afterUnbound_byte_frame (p : Nat) {b : Nat} (hb : b < outBase n at_ ∨ outBase n at_ + outBytes s n at_ ≤ b) :
    Memory.byte (afterUnbound s n qfmt at_ p).mem.ss b = Memory.byte s.mem.ss b := by
  have hlen := length_vecOutputs _ qfmt (Pte.fmt (s.pte 0))
    (Memory.read s.mem.ss (262144 * n + 32 * at_.1) (32 * (matAt s n at_).recu))
    (Memory.length_read s.mem.ss (outBase n at_) (outBytes s n at_))
  exact Memory.byte_write_frame _ _ _ (by rw [written, hlen]; exact hb)

end

/-- Over no row a MATVEC record that passes its checks raises no fault. -/
theorem matvecSeq_of_unbound {s : State} {a : At} {qfmt osa : Nat} {at_ : Pos} (hclean : s.mem.ssErr = [])
    (hb : Bnd.typ (s.bindEntry a.n (s.part a.p).bset a.slot) = 0) (h : UnboundOk qfmt osa at_ (headAt s a.n at_)) :
    ∃ at', matvecSeq s a qfmt osa at_ = .ok (at', afterUnbound s a.n qfmt at_ a.p) := by
  obtain ⟨hfmt, hbelow, hk, hnr, hnrMax, hnvec, hmode, hres, hrecu, hrecEnd, houtEnd⟩ := h
  have hhead : ssBytes s a.n at_.1 1 = .ok (headAt s a.n at_, s) := ssBytes_of_clean hclean ..
  refine ⟨(at_.1 + (matAt s a.n at_).recu, at_.2 + (matAt s a.n at_).nvec * (matAt s a.n at_).outUnits), ?_⟩
  simp only [Mat.outUnits] at houtEnd
  simp only [matvecSeq, slotPage_of_unbound hb, hhead, bind, Except.bind]
  rw [if_neg (by omega), if_neg ?_, if_neg (by omega), if_neg (by simp), if_neg (by simp [hfmt])]
  · simp only [ssBytes_of_clean hclean]
    rfl
  · simp only [hres, Bool.not_true, Bool.false_eq_true, Option.isSome_none, false_and, or_false, false_or]
    omega

theorem sequences_single (p n lane id first : Nat) (d : Desc) (at_ : Pos) (s : State) :
    sequences p n lane id first d (List.range 1) at_ s
      = (seqStep s { p := p, n := n, lane := lane, slot := first, id := id } d at_).map (·.2) := by
  simp only [List.range_one, sequences, Nat.add_zero]
  cases seqStep s { p := p, n := n, lane := lane, slot := first, id := id } d at_ <;> rfl

-- Where a lane of a GATHER begins (R164).

/-- Lanes of LMASK below a lane: its rank (R164). -/
def rankOf (d : Desc) (lane : Nat) : Nat := ((List.range lane).filter (fun i => (Dsc.lmask d).testBit i)).length

/-- The first slot of a lane, and where its first record and output stand (R164). -/
def firstSlot (d : Desc) (lane : Nat) : Nat := Dsc.gslot d + rankOf d lane * Dsc.nseq d
def startPos (s : State) (n lane : Nat) (d : Desc) : Pos :=
  (List.range (rankOf d lane * Dsc.nseq d)).foldl (fun at_ _ => skip s n d at_) (Dsc.qsa d, Dsc.osa d)

/-- A row of a page that a slot of the lane names is being copied (R139). -/
def waits (s : State) (p n lane : Nat) (d : Desc) : Bool :=
  (List.range (Dsc.nseq d)).any (fun i =>
    let b := s.bindEntry n (s.part p).bset (firstSlot d lane + i)
    Bnd.typ b == 1 && s.rowBusy (Bnd.row b * pageBytes) pageBytes)

/-- A lane with one slot, which names no row, waits for no copy. -/
theorem waits_of_unbound {s : State} {p n lane : Nat} {d : Desc} (hseq : Dsc.nseq d = 1)
    (hb : Bnd.typ (s.bindEntry n (s.part p).bset (firstSlot d lane)) = 0) : waits s p n lane d = false := by
  simp [waits, hseq, hb]

end Lane

section
variable {n lane p : Nat} {o : CellOp} {s : State}

theorem execGather_of_waits (h : startedOp s n (9 + lane) 6 = some (p, o)) (hwait : Lane.waits s p n lane o.desc = true) :
    execGather n lane s = .next s := by
  simp only [execGather, h]
  exact if_pos hwait

theorem execGather_of_sequences {u : State} (h : startedOp s n (9 + lane) 6 = some (p, o))
    (hwait : Lane.waits s p n lane o.desc = false)
    (hseq : Lane.sequences p n lane o.id (Lane.firstSlot o.desc lane) o.desc (List.range (Dsc.nseq o.desc))
      (Lane.startPos s n lane o.desc) s = .ok u) :
    execGather n lane s = .next (u.workDone n (9 + lane) o) := by
  simp only [Lane.firstSlot, Lane.startPos, Lane.rankOf] at hseq
  simp only [execGather, h, hseq]
  exact if_neg (Bool.eq_false_iff.1 hwait)

theorem execGather_of_unbound (h : startedOp s n (9 + lane) 6 = some (p, o)) (hmode : Dsc.gmode o.desc = 1)
    (hseq : Dsc.nseq o.desc = 1) (hb : Bnd.typ (s.bindEntry n (s.part p).bset (Lane.firstSlot o.desc lane)) = 0)
    (hclean : s.mem.ssErr = []) (hok : Lane.UnboundOk (Dsc.qfmt o.desc) (Dsc.osa o.desc) (Lane.startPos s n lane o.desc)
      (Lane.headAt s n (Lane.startPos s n lane o.desc))) :
    execGather n lane s = .next
      ((Lane.afterUnbound s n (Dsc.qfmt o.desc) (Lane.startPos s n lane o.desc) p).workDone n (9 + lane) o) := by
  obtain ⟨at', hmat⟩ := Lane.matvecSeq_of_unbound
    (a := { p := p, n := n, lane := lane, slot := Lane.firstSlot o.desc lane, id := o.id }) hclean hb hok
  apply execGather_of_sequences h (Lane.waits_of_unbound hseq hb)
  rw [hseq, Lane.sequences_single, Lane.seqStep, if_neg (by omega), hmat]
  rfl

end

end Sys2Proof.Machine

namespace Sys2Proof.Proofs
open Machine

/-- Settles O24: the checks of a lane in their order, and for a slot bound to no row the bytes of the MATVEC's outputs. -/
theorem gatherServesItsSlots : Obligations.GatherServesItsSlots := by
  intro n l p o s hstart d rank start m at_ ou busy
  refine ⟨execGather_of_waits hstart, fun u hwait hseq => ?_, fun hmode hseq hb hfmt hclean hbelow hk hnr hnrMax hnvec
    hmodeByte hres hrecu hrecEnd houtEnd => ?_⟩
  · exact ⟨_, execGather_of_sequences hstart hwait hseq, fun _ hm => workDone_cell_ne u _ o hm, workDone_frame u n _ o⟩
  · have hslot : Lane.firstSlot d l = Dsc.gslot d + rank := by rw [Lane.firstSlot, hseq, Nat.mul_one]; rfl
    have hok : Lane.UnboundOk (Dsc.qfmt d) (Dsc.osa d) start (Lane.headAt s n start) :=
      ⟨hfmt, hbelow, hk, hnr, hnrMax, hnvec, hmodeByte, hres, hrecu, hrecEnd, houtEnd⟩
    refine ⟨_, execGather_of_unbound hstart hmode hseq (hslot ▸ hb) hclean hok, ?_, fun v i k hv hi hk => ?_, fun a ha => ?_,
      rfl, rfl⟩
    · exact workDone_worked _ _ (by rw [Lane.afterUnbound_cell]; exact mem_ops_of_startedOp hstart)
    · exact Lane.afterUnbound_byte s n _ start p hv hi hk (by rw [Nat.add_assoc, Nat.add_assoc]; rfl)
    · exact Lane.afterUnbound_byte_frame s n _ start p ha

end Sys2Proof.Proofs
